-- ==== Sys2Proof/Word.lean ====
section
/-! DEFINITION. The words of the Isasinik part (R3, R4): scalar words, handles, vector registers, masks and accumulator lanes. -/

namespace Sys2Proof

/-- A scalar word: an S item of R117. -/
abbrev Word := BitVec 64

/-- One byte. -/
abbrev Byte := BitVec 8

/-- A handle's 64 bits (R248). -/
abbrev Handle := BitVec 64

/-- A vector register of 1 KiB (R117, R169). -/
abbrev VReg := BitVec 8192

/-- A mask register of 1,024 bits (R115). -/
abbrev Mask := BitVec 1024

/-- One lane of a long accumulator (R201). -/
abbrev Lane := BitVec 2048

/-- A bundle, or a tile command word: 256 bits (R106, R122). -/
abbrev Bits256 := BitVec 256

/-- A launch packet: 512 bits (R289). -/
abbrev Bits512 := BitVec 512

end Sys2Proof
end

