-- ==== Sys2Proof/Machine/Bits.lean ====
section
/-! DEFINITION. Bit fields, sign extension and byte order (R4, R7), used by the decoder and by every meaning. -/

namespace Sys2Proof.Machine

/-- Bits [lo + n - 1 : lo] of a number. -/
def bitsAt (x lo n : Nat) : Nat := (x >>> lo) % 2 ^ n

/-- Bit i of a number. -/
def bitAt (x i : Nat) : Bool := x.testBit i

/-- The unsigned field [lo + n - 1 : lo] of a word of any width, as a number (R4). -/
def fld {w : Nat} (x : BitVec w) (lo n : Nat) : Nat := bitsAt x.toNat lo n

/-- sext(x, n): the low n bits of x read as two's complement (R7). -/
def sextNat (x n : Nat) : Int :=
  if n = 0 then 0
  else if bitAt x (n - 1) then (bitsAt x 0 n : Int) - (2 : Int) ^ n else (bitsAt x 0 n : Int)

/-- The signed field [lo + n - 1 : lo] of a word. -/
def sfld {w : Nat} (x : BitVec w) (lo n : Nat) : Int := sextNat (fld x lo n) n

/-- An integer reduced modulo 2^n, as a number. -/
def wrapNat (x : Int) (n : Nat) : Nat := (x % (2 : Int) ^ n).toNat

/-- sext(x, n) as a 64-bit word. -/
def sext64 (x n : Nat) : Word := BitVec.ofInt 64 (sextNat x n)

/-- zext(x, n) as a 64-bit word. -/
def zext64 (x n : Nat) : Word := BitVec.ofNat 64 (bitsAt x 0 n)

/-- A Boolean as 0 or 1. -/
def b2n (b : Bool) : Nat := if b then 1 else 0

/-- A Boolean as a 64-bit word, 0 or 1. -/
def b2w (b : Bool) : Word := if b then 1 else 0

/-- x with bits [lo + n - 1 : lo] replaced by the low n bits of v. -/
def putBits (x lo n v : Nat) : Nat :=
  (x >>> (lo + n)) <<< (lo + n) + (bitsAt v 0 n) <<< lo + bitsAt x 0 lo

/-- A word with a field replaced. -/
def putFld {w : Nat} (x : BitVec w) (lo n v : Nat) : BitVec w := BitVec.ofNat w (putBits x.toNat lo n v)

/-- The number of 1 bits among the low n bits of x. -/
def popcount (x : Nat) : Nat → Nat
  | 0 => 0
  | n + 1 => b2n (bitAt x n) + popcount x n

/-- The lowest set bit among bits i, i + 1, ... of x, looking at n of them. -/
def lowestFrom (x i : Nat) : Nat → Option Nat
  | 0 => none
  | n + 1 => if bitAt x i then some i else lowestFrom x (i + 1) n

/-- The lowest set bit among the low n bits of x. -/
def lowestBit (x n : Nat) : Option Nat := lowestFrom x 0 n

/-- The low n bits of x in reverse order. -/
def revBits (x : Nat) : Nat → Nat
  | 0 => 0
  | n + 1 => b2n (bitAt x 0) * 2 ^ n + revBits (x / 2) n

/-- Little-endian bytes of a number (R4): byte 0 first. -/
def toBytes (x : Nat) : Nat → List Byte
  | 0 => []
  | n + 1 => BitVec.ofNat 8 x :: toBytes (x >>> 8) n

/-- The number little-endian bytes spell (R4). -/
def ofBytes : List Byte → Nat
  | [] => 0
  | b :: bs => b.toNat + 256 * ofBytes bs

/-- ceil(a / b). -/
def ceilDiv (a b : Nat) : Nat := (a + b - 1) / b

/-- The 64-bit value written n times, lowest first (R116). -/
def replicateBits (v w : Nat) : Nat → Nat
  | 0 => 0
  | n + 1 => v % 2 ^ w + (replicateBits v w n) <<< w

/-- A list of w-bit numbers packed from bit 0 upward. -/
def packBits (w : Nat) : List Nat → Nat
  | [] => 0
  | x :: xs => x % 2 ^ w + (packBits w xs) <<< w

end Sys2Proof.Machine
end

