-- ==== Sys2Proof/Machine/Num.lean ====
section
/-! DEFINITION. Number formats, exact arithmetic, rounding, conversions and estimates (04_numbers.md, R76-R100). -/

namespace Sys2Proof.Machine

/-- The five exception conditions of R89, in the bit places of VFLAGS (R178): IVL 4, DZ 3, OVF 2, UNF 1, INX 0. -/
abbrev Flags := BitVec 5

/-- invalid. -/
def fIVL : Flags := 16
/-- divide-by-zero. -/
def fDZ : Flags := 8
/-- overflow. -/
def fOVF : Flags := 4
/-- underflow. -/
def fUNF : Flags := 2
/-- inexact. -/
def fINX : Flags := 1

/-- The floating-point formats of R78. -/
inductive FFmt where
  | fp64 | fp32 | fp16 | bf16 | e5m2 | e4m3 | e2m1
  deriving DecidableEq, Repr

/-- The element types a form word names (R76, R78). -/
inductive EType where
  | int (signed : Bool) (bits : Nat)
  | fp (f : FFmt)
  | bfp
  deriving DecidableEq, Repr

/-- The type code of the form word's [3:0] field: every one of the sixteen codes is assigned. -/
def etypeOf (code : Nat) : EType :=
  match code % 16 with
  | 0 => .int true 8
  | 1 => .int true 16
  | 2 => .int true 32
  | 3 => .int true 64
  | 4 => .int false 8
  | 5 => .int false 16
  | 6 => .int false 32
  | 7 => .int false 64
  | 8 => .fp .e2m1
  | 9 => .fp .e4m3
  | 10 => .fp .e5m2
  | 11 => .fp .fp16
  | 12 => .fp .bf16
  | 13 => .fp .fp32
  | 14 => .fp .fp64
  | _ => .bfp

/-- Exponent bits. -/
def FFmt.ebits : FFmt → Nat
  | .fp64 => 11 | .fp32 => 8 | .fp16 => 5 | .bf16 => 8 | .e5m2 => 5 | .e4m3 => 4 | .e2m1 => 2

/-- Fraction bits. -/
def FFmt.fbits : FFmt → Nat
  | .fp64 => 52 | .fp32 => 23 | .fp16 => 10 | .bf16 => 7 | .e5m2 => 2 | .e4m3 => 3 | .e2m1 => 1

/-- Exponent bias. -/
def FFmt.bias : FFmt → Nat
  | .fp64 => 1023 | .fp32 => 127 | .fp16 => 15 | .bf16 => 127 | .e5m2 => 15 | .e4m3 => 7 | .e2m1 => 1

/-- Width in bits. -/
def FFmt.width (f : FFmt) : Nat := 1 + f.ebits + f.fbits

/-- Width of an element; BFP counts as 32 for the shape check (R191). -/
def EType.width : EType → Nat
  | .int _ b => b
  | .fp f => f.width
  | .bfp => 32

/-- The exponent of the smallest normal. -/
def FFmt.emin (f : FFmt) : Int := 1 - (f.bias : Int)

/-- The exponent of the largest finite value's leading bit. -/
def FFmt.emax (f : FFmt) : Int :=
  match f with
  | .e4m3 => 8
  | .e2m1 => 2
  | _ => f.bias

/-- The significand of the largest finite value: 448 is 14 * 2^5 and 6 is 3 * 2^1 (R78). -/
def FFmt.maxSig (f : FFmt) : Nat :=
  match f with
  | .e4m3 => 14
  | _ => 2 ^ (f.fbits + 1) - 1

/-- The canonical NaN (R79); E2M1 has none and gives 0x0 (R81). -/
def FFmt.canonNaN : FFmt → Nat
  | .fp64 => 0x7FF8000000000000
  | .fp32 => 0x7FC00000
  | .fp16 => 0x7E00
  | .bf16 => 0x7FC0
  | .e5m2 => 0x7E
  | .e4m3 => 0x7F
  | .e2m1 => 0

/-- The largest finite code with a sign (R78). -/
def FFmt.maxCode (f : FFmt) (neg : Bool) : Nat :=
  b2n neg * 2 ^ (f.width - 1) +
    match f with
    | .fp64 => 0x7FEFFFFFFFFFFFFF
    | .fp32 => 0x7F7FFFFF
    | .fp16 => 0x7BFF
    | .bf16 => 0x7F7F
    | .e5m2 => 0x7B
    | .e4m3 => 0x7E
    | .e2m1 => 0x7

/-- The infinity code with a sign, for the formats that have one (R78). -/
def FFmt.infCode (f : FFmt) (neg : Bool) : Nat :=
  b2n neg * 2 ^ (f.width - 1) + (2 ^ f.ebits - 1) * 2 ^ f.fbits

/-- A decoded element: a NaN, an infinity, or the finite value (-1)^neg * m * 2^e (m = 0 is a signed zero). -/
inductive Num where
  | nan (signalling : Bool)
  | inf (neg : Bool)
  | fin (neg : Bool) (m : Nat) (e : Int)
  deriving DecidableEq, Repr

/-- Decodes the bits of an element (R78, R79, R81). -/
def FFmt.decode (f : FFmt) (bits : Nat) : Num :=
  let neg := bitAt bits (f.width - 1)
  let ex := bitsAt bits f.fbits f.ebits
  let fr := bitsAt bits 0 f.fbits
  let finite : Num :=
    if ex = 0 then .fin neg fr (f.emin - f.fbits)
    else .fin neg (2 ^ f.fbits + fr) ((ex : Int) - f.bias - f.fbits)
  match f with
  | .e2m1 => finite
  | .e4m3 => if ex = 15 ∧ fr = 7 then .nan false else finite
  | _ =>
    if ex = 2 ^ f.ebits - 1 then
      (if fr = 0 then .inf neg else .nan (!bitAt fr (f.fbits - 1)))
    else finite

/-- Rounding modes (R86); DIT carries the dither term d = num / 64 of R88. -/
inductive RMode where
  | rne | rtz | rdn | rup | rmm
  | dit (num : Nat)
  deriving DecidableEq, Repr

/-- Whether a magnitude with integer part fl and remainder rem / 2^s (0 < s) is rounded up in magnitude (R86, R88). -/
def RMode.up (md : RMode) (neg : Bool) (fl rem s : Nat) : Bool :=
  match md with
  | .rne => decide (2 * rem > 2 ^ s) || (decide (2 * rem = 2 ^ s) && fl % 2 == 1)
  | .rtz => false
  | .rdn => neg && decide (rem ≠ 0)
  | .rup => !neg && decide (rem ≠ 0)
  | .rmm => decide (2 * rem ≥ 2 ^ s)
  | .dit num => decide (rem * 64 + num * 2 ^ s ≥ 64 * 2 ^ s)

/-- The number of bits of a number. -/
def bitLen (m : Nat) : Nat := if m = 0 then 0 else Nat.log2 m + 1

/-- m * 2^-s0 rounded to an integer, and whether that was inexact. Below 2^-8 every mode decides alike, so a longer shift
acts as one of eight bits more than m has. -/
def roundShift (md : RMode) (neg : Bool) (m s0 : Nat) : Nat × Bool :=
  let s := min s0 (bitLen m + 8)
  if s = 0 then (m, false)
  else
    let fl := m >>> s
    let rem := m % 2 ^ s
    (if md.up neg fl rem s then fl + 1 else fl, decide (rem ≠ 0))

/-- m * 2^e rounded to a multiple of 2^q: the multiple and whether that was inexact. -/
def roundTo (md : RMode) (neg : Bool) (m : Nat) (e q : Int) : Nat × Bool :=
  if q ≤ e then (m <<< (e - q).toNat, false) else roundShift md neg m (q - e).toNat

/-- A significand r * 2^q, known to be representable, as a code (R78). -/
def FFmt.pack (f : FFmt) (neg : Bool) (r : Nat) (q : Int) : Nat :=
  let sgn := b2n neg * 2 ^ (f.width - 1)
  if r = 0 then sgn
  else
    let L := bitLen r
    let top := q + L - 1
    if top < f.emin then sgn + r <<< (q - (f.emin - f.fbits)).toNat
    else
      let sig := if L ≤ f.fbits + 1 then r <<< (f.fbits + 1 - L) else r >>> (L - (f.fbits + 1))
      sgn + (top + f.bias).toNat * 2 ^ f.fbits + (sig - 2 ^ f.fbits)

/-- The result of a finite overflow under the effective SAT (R80, R81). -/
def FFmt.overflow (f : FFmt) (md : RMode) (sat neg : Bool) : Nat :=
  match f with
  | .e2m1 => f.maxCode neg
  | .e4m3 => if sat then f.maxCode neg else 0x7F
  | _ =>
    let away : Bool := match md with
      | .rtz => false
      | .rdn => neg
      | .rup => !neg
      | _ => true
    if !sat && away then f.infCode neg else f.maxCode neg

/-- An exact result before rounding: a NaN (with whether it is invalid), an infinity, or a signed dyadic. -/
inductive Exact where
  | nan (invalid : Bool)
  | inf (neg : Bool)
  | val (neg : Bool) (m : Nat) (e : Int)
  deriving DecidableEq, Repr

/-- Rounds m * 2^e once into the format, with the conditions of R87 and R89. -/
def FFmt.round (f : FFmt) (md : RMode) (sat neg : Bool) (m : Nat) (e : Int) : Nat × Flags :=
  if m = 0 then (f.pack neg 0 0, 0)
  else
    let top := e + bitLen m - 1
    let qu := top - f.fbits
    let q := max qu (f.emin - f.fbits)
    let r := roundTo md neg m e q
    let big : Bool := decide (bitLen r.1 > 0) &&
      (let t := q + bitLen r.1 - 1
       decide (t > f.emax) || (decide (t = f.emax) && decide (r.1 > f.maxSig <<< (bitLen r.1 - (f.fbits + 1)))))
    if big then (f.overflow md sat neg, fOVF ||| fINX)
    else
      let ru := roundTo md neg m e qu
      let tiny : Bool := decide (qu + bitLen ru.1 - 1 < f.emin)
      let fl : Flags := (if r.2 then fINX else 0) ||| (if r.2 && tiny then fUNF else 0)
      (f.pack neg r.1 q, fl)

/-- Delivers an exact result in the format (R79, R80, R81, R86). -/
def FFmt.deliver (f : FFmt) (md : RMode) (sat : Bool) : Exact → Nat × Flags
  | .nan invalid =>
    match f with
    | .e2m1 => (0, fIVL)
    | _ => (f.canonNaN, if invalid then fIVL else 0)
  | .inf neg =>
    match f with
    | .e2m1 => (f.maxCode neg, fIVL)
    | .e4m3 => (if sat then f.maxCode neg else 0x7F, fIVL)
    | _ => (f.infCode neg, 0)
  | .val neg m e => f.round md sat neg m e

/-- One operand of a sum as an exact value. -/
def Num.exact : Num → Exact
  | .nan sg => .nan sg
  | .inf neg => .inf neg
  | .fin neg m e => .val neg m e

/-- The exact product of two operands (R90): 0 times infinity is invalid. -/
def Num.mul : Num → Num → Exact
  | .nan sx, y => .nan (sx || (match y with | .nan sy => sy | _ => false))
  | _, .nan sy => .nan sy
  | .inf nx, .inf ny => .inf (nx != ny)
  | .inf nx, .fin ny m _ => if m = 0 then .nan true else .inf (nx != ny)
  | .fin nx m _, .inf ny => if m = 0 then .nan true else .inf (nx != ny)
  | .fin nx mx ex, .fin ny my ey => .val (nx != ny) (mx * my) (ex + ey)

/-- The value with its sign inverted. -/
def Exact.neg : Exact → Exact
  | .nan i => .nan i
  | .inf n => .inf (!n)
  | .val n m e => .val (!n) m e

/-- The smallest exponent among the non-zero finite terms. -/
def minExp : List Exact → Option Int
  | [] => none
  | .val _ m e :: ts =>
    if m = 0 then minExp ts
    else
      match minExp ts with
      | none => some e
      | some e' => some (min e e')
  | _ :: ts => minExp ts

/-- The exact sum of the finite terms in units of 2^e0. -/
def sumAt (e0 : Int) : List Exact → Int
  | [] => 0
  | .val n m e :: ts =>
    let v : Int := (m <<< (e - e0).toNat : Nat)
    (if n then -v else v) + sumAt e0 ts
  | _ :: ts => sumAt e0 ts

/-- The exact sum of a list of terms: NaN rules, infinities, and the zero signs of R91. A NaN operand gives a NaN that is
invalid only when some operand was a signalling NaN; infinity minus infinity is invalid (R89). -/
def exactSum (md : RMode) (ts : List Exact) : Exact :=
  if ts.any (fun t => match t with | .nan _ => true | _ => false) then
    .nan (ts.any (fun t => match t with | .nan i => i | _ => false))
  else
    let pos := ts.any (fun t => match t with | .inf n => !n | _ => false)
    let neg := ts.any (fun t => match t with | .inf n => n | _ => false)
    if pos && neg then .nan true
    else if pos then .inf false
    else if neg then .inf true
    else
      match minExp ts with
      | some e0 =>
        let v := sumAt e0 ts
        if v = 0 then .val (md == .rdn) 0 0
        else .val (decide (v < 0)) v.natAbs e0
      | none =>
        let allNeg := ts.all (fun t => match t with | .val n _ _ => n | _ => false)
        let allPos := ts.all (fun t => match t with | .val n _ _ => !n | _ => false)
        if allPos then .val false 0 0
        else if allNeg then .val true 0 0
        else .val (md == .rdn) 0 0

/-- The exact product-and-add of VFMA and its relatives (R90): a NaN operand gives a NaN, and a signalling one, 0 times infinity and
infinity minus infinity are invalid (R79, R89). DEDUCED (log 12). -/
def fmaExact (md : RMode) (negP negC : Bool) (x y z : Num) : Exact :=
  let p := x.mul y
  exactSum md [if negP then p.neg else p, if negC then z.exact.neg else z.exact]

/-- The total order key used by the compares of numbers: sign and magnitude as an exact comparison. -/
def Num.lt : Num → Num → Bool
  | .nan _, _ => false
  | _, .nan _ => false
  | .inf nx, .inf ny => nx && !ny
  | .inf nx, .fin _ _ _ => nx
  | .fin _ _ _, .inf ny => !ny
  | .fin nx mx ex, .fin ny my ey =>
    let e0 := min ex ey
    let vx : Int := (mx <<< (ex - e0).toNat : Nat)
    let vy : Int := (my <<< (ey - e0).toNat : Nat)
    decide ((if nx then -vx else vx) < (if ny then -vy else vy))

/-- Numeric equality; -0 equals +0 and a NaN equals nothing. -/
def Num.eq (x y : Num) : Bool :=
  match x, y with
  | .nan _, _ => false
  | _, .nan _ => false
  | _, _ => !x.lt y && !y.lt x

/-- Whether a number is a NaN. -/
def Num.isNaN : Num → Bool
  | .nan _ => true
  | _ => false

/-- Whether a number is a signalling NaN. -/
def Num.isSig : Num → Bool
  | .nan s => s
  | _ => false

/-- Whether the sign is minus. -/
def Num.isNeg : Num → Bool
  | .nan _ => false
  | .inf n => n
  | .fin n _ _ => n

/-- A finite number rounded to an integer in a mode: the integer and whether that changed the value. -/
def roundInt (md : RMode) (neg : Bool) (m : Nat) (e : Int) : Int × Bool :=
  let r := roundTo md neg m e 0
  (if neg then -(r.1 : Int) else r.1, r.2)

/-- The range of an integer type (R76). -/
def intLo (signed : Bool) (b : Nat) : Int := if signed then -((2 : Int) ^ (b - 1)) else 0
/-- The range of an integer type (R76). -/
def intHi (signed : Bool) (b : Nat) : Int := if signed then (2 : Int) ^ (b - 1) - 1 else (2 : Int) ^ b - 1

/-- Reduces an exact integer to an element: wraps, or clamps under SAT (R77). -/
def reduceInt (signed : Bool) (b : Nat) (sat : Bool) (x : Int) : Nat :=
  wrapNat (if sat then min (max x (intLo signed b)) (intHi signed b) else x) b

/-- Reads an integer element's value. -/
def readInt (signed : Bool) (b bits : Nat) : Int := if signed then sextNat bits b else (bitsAt bits 0 b : Nat)

/-- Floating point to integer (R77): the range is judged on the rounded integer. DEDUCED (log 66). -/
def fpToInt (md : RMode) (signed : Bool) (b : Nat) : Num → Nat × Flags
  | .nan _ => (0, fIVL)
  | .inf neg => (wrapNat (if neg then intLo signed b else intHi signed b) b, fIVL)
  | .fin neg m e =>
    let r := roundInt md neg m e
    if r.1 < intLo signed b then (wrapNat (intLo signed b) b, fIVL)
    else if r.1 > intHi signed b then (wrapNat (intHi signed b) b, fIVL)
    else (wrapNat r.1 b, if r.2 then fINX else 0)

/-- Whether a conversion from an integer into the format raises overflow (R77): the FP8 formats alone. DEDUCED (log 67). -/
def FFmt.intOverflows (f : FFmt) : Bool :=
  match f with
  | .e5m2 => true
  | .e4m3 => true
  | _ => false

/-- One element of a conversion between integers and floating formats (R77, R80, R81, R191). DEDUCED (log 67). -/
def convertElem (src dst : EType) (md : RMode) (sat : Bool) (bits : Nat) : Nat × Flags :=
  match src, dst with
  | .int ss sb, .int ds db => (reduceInt ds db sat (readInt ss sb bits), 0)
  | .int ss sb, .fp f =>
    let v := readInt ss sb bits
    let r := f.round md sat (decide (v < 0)) v.natAbs 0
    (r.1, if f.intOverflows then r.2 else r.2 &&& ~~~fOVF)
  | .fp f, .int ds db => fpToInt (match md with | .dit _ => .rne | m => m) ds db (f.decode bits)
  | .fp f, .fp g => g.deliver md sat (f.decode bits).exact
  | _, _ => (0, 0)

/-- Bits of the integer square root, from bit k - 1 down: the largest r with r * r ≤ x built on r0. -/
def isqrtBits (x : Nat) : Nat → Nat → Nat
  | 0, r => r
  | k + 1, r =>
    let r' := r + 2 ^ k
    isqrtBits x k (if r' * r' ≤ x then r' else r)

/-- The integer square root. -/
def isqrt (x : Nat) : Nat := isqrtBits x ((bitLen x + 1) / 2 + 1) 0

/-- The correctly rounded square root of a finite positive number (R199): the root of enough bits with a sticky bit below. -/
def sqrtExact (f : FFmt) (m : Nat) (e : Int) : Exact :=
  let m1 := if e % 2 = 0 then m else 2 * m
  let e1 := if e % 2 = 0 then e else e - 1
  let want := 2 * (f.fbits + 5)
  let sh := 2 * ((want - bitLen m1 + 1) / 2)
  let x := m1 <<< sh
  let r := isqrt x
  .val false (2 * r + (if r * r = x then 0 else 1)) ((e1 - sh) / 2 - 1)

/-- SQRT of one element (R199). -/
def sqrtElem (f : FFmt) (md : RMode) (sat : Bool) (bits : Nat) : Nat × Flags :=
  match f.decode bits with
  | .nan s => f.deliver md sat (.nan s)
  | .inf neg => if neg then f.deliver md sat (.nan true) else (f.infCode false, 0)
  | .fin neg m e =>
    if m = 0 then (f.pack neg 0 0, 0)
    else if neg then f.deliver md sat (.nan true)
    else f.deliver md sat (sqrtExact f m e)

/-! The estimates (R95-R100): the table entries by their formulas, on whole numbers. The midpoint is N / 128. -/

/-- 128 times the midpoint of interval k (R95). -/
def midNum (k : Nat) : Nat := if k = 0 then 128 else 128 + 2 * k + 1

/-- round(num / den, integer, RNE). -/
def roundDiv (num den : Nat) : Nat :=
  let q := num / den
  let r := num % den
  if 2 * r > den ∨ (2 * r = den ∧ q % 2 = 1) then q + 1 else q

/-- T of RSQE: round(4096 / sqrt(2^P * N / 128)) (R96). -/
def rsqeT (p k : Nat) : Nat :=
  let den := 2 ^ p * midNum k
  let num := 4096 * 4096 * 128
  let t := isqrt (num / den)
  let lhs := 4 * num
  let rhs := (2 * t + 1) * (2 * t + 1) * den
  if lhs > rhs ∨ (lhs = rhs ∧ t % 2 = 1) then t + 1 else t

/-- T of RCPE: round(4096 / (N / 128)) (R97). -/
def rcpeT (k : Nat) : Nat := roundDiv (4096 * 128) (midNum k)

/-- The bits of the largest t with (2t + 1)^128 ≤ 8192^128 * 2^j, which brackets 4096 * 2^(j/128) by halves. -/
def exp2Bits (j : Nat) : Nat → Nat → Nat
  | 0, t => t
  | k + 1, t =>
    let t' := t + 2 ^ k
    exp2Bits j k (if (2 * t' - 1) ^ 128 ≤ 8192 ^ 128 * 2 ^ j then t' else t)

/-- T of EXP2E: round(4096 * 2^(j / 128)) with j = 0 or 2k + 1 (R98): the largest T with T - 1/2 ≤ 4096 * 2^(j/128). -/
def exp2T (k : Nat) : Nat := exp2Bits (if k = 0 then 0 else 2 * k + 1) 13 0

/-- T of LOG2E: round(4096 * log2(N / 128)) (R99), from floor(8192 * log2(N / 128)). -/
def log2T (k : Nat) : Nat := (Nat.log2 (midNum k ^ 8192) - 7 * 8192 + 1) / 2

/-- The top six fraction bits of a non-zero m (R95). -/
def topSix (m : Nat) : Nat :=
  let L := bitLen m
  (if L ≤ 7 then m <<< (7 - L) else m >>> (L - 7)) - 64

/-- The four estimates of SFN. -/
inductive Est where
  | rsqe | rcpe | exp2e | log2e
  deriving DecidableEq, Repr

/-- Flags of an estimate: FP32 and FP64 estimates of RSQE, RCPE and LOG2E raise no inexact (R100). -/
def estFlags (f : FFmt) (fl : Flags) : Flags :=
  match f with
  | .fp32 => fl &&& ~~~fINX
  | .fp64 => fl &&& ~~~fINX
  | _ => fl

/-- One element of an estimate (R96-R100). A result past the largest finite is an infinity, whatever SAT says. DEDUCED (log 83). An EXP2E
result that is subnormal and exact raises nothing. DEDUCED (log 84). -/
def estElem (op : Est) (f : FFmt) (bits : Nat) : Nat × Flags :=
  let invalid := f.deliver .rne false (.nan true)
  match op, f.decode bits with
  | _, .nan s => f.deliver .rne false (.nan s)
  | .rsqe, .inf neg => if neg then invalid else (0, 0)
  | .rcpe, .inf neg => (f.pack neg 0 0, 0)
  | .exp2e, .inf neg => if neg then (0, 0) else (f.infCode false, 0)
  | .log2e, .inf neg => if neg then invalid else (f.infCode false, 0)
  | .rsqe, .fin neg m e =>
    if m = 0 then (f.infCode neg, fDZ)
    else if neg then invalid
    else
      let E := e + bitLen m - 1
      let P := (E % 2).toNat
      let r := f.round .rne false false (rsqeT P (topSix m)) (-12 - (E - P) / 2)
      (r.1, estFlags f r.2)
  | .rcpe, .fin neg m e =>
    if m = 0 then (f.infCode neg, fDZ)
    else
      let E := e + bitLen m - 1
      let r := f.round .rne false neg (rcpeT (topSix m)) (-12 - E)
      (r.1, estFlags f r.2)
  | .exp2e, .fin neg m e =>
    let x64 : Int := if 0 ≤ e + 6 then ((m <<< (e + 6).toNat : Nat) : Int) else ((m >>> (-(e + 6)).toNat : Nat) : Int)
    let exact : Bool := decide (0 ≤ e + 6) || decide (m % 2 ^ (-(e + 6)).toNat = 0)
    let fl64 : Int := if neg then (if exact then -x64 else -x64 - 1) else x64
    let n := fl64 / 64
    let k := (fl64 % 64).toNat
    let r := f.round .rne false false (exp2T k) (n - 12)
    (r.1, if r.2 &&& fUNF = 0 then r.2 &&& ~~~fINX else r.2)
  | .log2e, .fin neg m e =>
    if m = 0 then (f.infCode true, fDZ)
    else if neg then invalid
    else
      let E := e + bitLen m - 1
      let v : Int := E * 4096 + log2T (topSix m)
      let r := f.round .rne false (decide (v < 0)) v.natAbs (-12)
      (r.1, estFlags f r.2)

/-! Ordered dither (R88). -/

/-- 64 * d(i, PH) = 2 * bitrev5((i + 5 * PH) mod 32) + 1. -/
def ditherNum (i ph : Nat) : Nat := 2 * revBits ((i + 5 * ph) % 32) 5 + 1

/-- The phase of group b: (base + floor(b / 8)) mod 16. -/
def ditherPhase (base b : Nat) : Nat := (base + b / 8) % 16

/-- The rounding mode of a form's RND field with VCTL's DRM (R86). ditOk says whether DIT has its meaning here; the dither
term is that of element i in its group of 32 under the base phase. -/
def modeOf (rnd drm : Nat) (ditOk : Bool) (base idx : Nat) : RMode :=
  let basic : Nat → RMode := fun r =>
    match r with
    | 1 => .rtz
    | 2 => .rdn
    | 3 => .rup
    | 4 => .rmm
    | 5 => if ditOk then .dit (ditherNum (idx % 32) (ditherPhase base (idx / 32))) else .rne
    | _ => .rne
  if rnd = 6 then basic drm else basic rnd

end Sys2Proof.Machine
end

