-- ==== Sys2Proof/Machine/Bfp.lean ====
section
/-! DEFINITION. Block floating point: the block slot, encoding and decoding (R82-R85, R88, R103). -/

namespace Sys2Proof.Machine

/-- The bytes of a block slot of width w: 4 * w + 3 (R83). -/
def bfpSlotBytes (w : Nat) : Nat := 4 * w + 3

/-- floor(log2(num / den)) for positive num and den. -/
def floorLog2Ratio (num den : Nat) : Int :=
  let k : Int := (bitLen num : Int) - bitLen den
  let below : Bool := if 0 ≤ k then decide (num < den <<< k.toNat) else decide (num <<< (-k).toNat < den)
  if below then k - 1 else k

/-- ceil(num / den * 2^-k). -/
def ceilRatio (num den : Nat) (k : Int) : Nat :=
  if 0 ≤ k then ceilDiv num (den <<< k.toNat) else ceilDiv (num <<< (-k).toNat) den

/-- The finite magnitudes of a list in units of 2^e0; a NaN counts as 0. DEDUCED (log 68). -/
def magsAt (e0 : Int) : List Num → List Nat
  | [] => []
  | .fin _ m e :: xs => m <<< (e - e0).toNat :: magsAt e0 xs
  | _ :: xs => 0 :: magsAt e0 xs

/-- The scale chosen by R85 (or R103 when fsZero): (e, FS). maxabs is mx * 2^e0 and not zero. DEDUCED (log 69). -/
def bfpScale (w : Nat) (fsZero : Bool) (mx : Nat) (e0 : Int) : Int × Nat :=
  let q := 2 ^ (w - 1) - 1
  let num := mx * 2 ^ (w - 1)
  let k := floorLog2Ratio num q
  let e := k + e0
  if fsZero then
    let exact : Bool := if 0 ≤ k then decide (num = q <<< k.toNat) else decide (num <<< (-k).toNat = q)
    let e1 := if exact then e else e + 1
    (min (max e1 (-119)) 128, 0)
  else
    let fs := ceilRatio (256 * num) q k - 256
    let s1 : Int × Nat := if fs = 256 then (e + 1, 0) else (e, fs)
    let s2 : Int × Nat := if s1.1 < -119 then (-119, 0) else s1
    if s2.1 > 127 ∨ (s2.1 = 127 ∧ s2.2 > 255) then (127, 255) else s2

/-- x / unit as a ratio num / den with unit = (256 + FS) * 2^(e - 7 - w) (R85). -/
def bfpRatio (w : Nat) (e : Int) (fs : Nat) (m : Nat) (ex : Int) : Nat × Nat :=
  let u := e - 7 - w
  if u ≤ ex then (m <<< (ex - u).toNat, 256 + fs) else (m, (256 + fs) <<< (u - ex).toNat)

/-- One mantissa (R85): element i with the phase of DIT, or none under RNE; and its conditions. The dither is added to the signed quotient.
DEDUCED (log 85). -/
def bfpMant (w : Nat) (e : Int) (fs : Nat) (phase : Option Nat) (i : Nat) : Num → Int × Flags
  | .nan _ => (0, fIVL ||| fINX)
  | .inf neg =>
    let q : Int := 2 ^ (w - 1) - 1
    (if neg then -q else q, fIVL ||| fINX)
  | .fin neg m ex =>
    let q : Int := 2 ^ (w - 1) - 1
    let r := bfpRatio w e fs m ex
    let v : Int :=
      match phase with
      | none => let n : Int := roundDiv r.1 r.2; if neg then -n else n
      | some ph =>
        let n : Int := 64 * r.1
        ((if neg then -n else n) + ditherNum i ph * r.2) / (64 * r.2)
    let c := min (max v (-q)) q
    let clamped : Bool := decide (c ≠ v)
    let same : Bool := decide ((if neg then -(r.1 : Int) else r.1) = c * r.2)
    (c, (if clamped then fOVF ||| fINX else 0) ||| (if same then 0 else fINX))

/-- The mantissas of a block from element i on, each with its conditions. -/
def bfpMants (w : Nat) (e : Int) (fs : Nat) (phase : Option Nat) : Nat → List Num → List (Int × Flags)
  | _, [] => []
  | i, x :: xs => bfpMant w e fs phase i x :: bfpMants w e fs phase (i + 1) xs

/-- Encodes one block of 32 inputs with width w (R85, R103): the slot as a number and the conditions of each element.
DEDUCED (log 14, 68, 69). -/
def bfpEncode (w : Nat) (fsZero : Bool) (phase : Option Nat) (xs : List Num) : Nat × List Flags :=
  let e0 := (minExp (xs.map Num.exact)).getD 0
  let mx := (magsAt e0 xs).foldl max 0
  let hasInf := xs.any (fun x => match x with | .inf _ => true | _ => false)
  if !hasInf && decide (mx = 0) then
    (2 ^ 19 + (w - 2) * 2 ^ 16, xs.map (fun x => if x.isNaN then fIVL ||| fINX else 0))
  else
    let sc : Int × Nat := if hasInf then (127, if fsZero then 0 else 255) else bfpScale w fsZero mx e0
    let ms := bfpMants w sc.1 sc.2 phase 0 xs
    let z := ms.all (fun m => m.1 == 0)
    let word := (phase.getD 0) * 2 ^ 20 + b2n z * 2 ^ 19 + (w - 2) * 2 ^ 16 + sc.2 * 2 ^ 8 + (sc.1 + 127).toNat
    (word + (packBits w (ms.map (fun m => wrapNat m.1 w))) * 2 ^ 24, ms.map (fun m => m.2))

/-- Element i of a decoded block, exactly (R84). -/
def bfpDecodeElem (w slot i : Nat) : Num :=
  if bitsAt slot 16 3 = 7 then .nan true
  else if bitAt slot 19 then .fin false 0 0
  else
    let m := sextNat (bitsAt slot (24 + i * w) w) w
    if m = 0 then .fin false 0 0
    else .fin (decide (m < 0)) (m.natAbs * (256 + bitsAt slot 8 8)) ((bitsAt slot 0 8 : Int) - 134 - w)

/-- Whether a scale word has the reserved width 7, which the memory codec treats as uncorrectable (R84). -/
def bfpBadWidth (slot : Nat) : Bool := bitsAt slot 16 3 == 7

end Sys2Proof.Machine
end

