-- ==== Sys2Proof/Machine/Map.lean ====
section
/-! DEFINITION. Finite maps from numbers, held as lists in rising key order, and the byte memory in its one canonical form. -/

namespace Sys2Proof.Machine

/-- A finite map: keys strictly rising. -/
abbrev NMap (α : Type) := List (Nat × α)

/-- The value at a key, or the default. -/
def NMap.get {α : Type} (m : NMap α) (k : Nat) (d : α) : α :=
  match m with
  | [] => d
  | (i, a) :: r => if i = k then a else if k < i then d else NMap.get r k d

/-- The value at a key, if listed. -/
def NMap.find {α : Type} (m : NMap α) (k : Nat) : Option α :=
  match m with
  | [] => none
  | (i, a) :: r => if i = k then some a else if k < i then none else NMap.find r k

/-- The map with a key set. -/
def NMap.set {α : Type} (m : NMap α) (k : Nat) (v : α) : NMap α :=
  match m with
  | [] => [(k, v)]
  | (i, a) :: r => if i = k then (k, v) :: r else if k < i then (k, v) :: (i, a) :: r else (i, a) :: NMap.set r k v

/-- The map with a key removed. -/
def NMap.erase {α : Type} (m : NMap α) (k : Nat) : NMap α :=
  match m with
  | [] => []
  | (i, a) :: r => if i = k then r else if k < i then (i, a) :: r else (i, a) :: NMap.erase r k

/-- The map with a key changed by a function of its value or the default. -/
def NMap.upd {α : Type} (m : NMap α) (k : Nat) (d : α) (f : α → α) : NMap α := m.set k (f (m.get k d))

/-- Every value changed by a function of key and value. -/
def NMap.mapVals {α : Type} (f : Nat → α → α) (m : NMap α) : NMap α := m.map (fun p => (p.1, f p.1 p.2))

/-- Removes the keys from lo up to, not including, hi. -/
def NMap.eraseRange {α : Type} (m : NMap α) (lo hi : Nat) : NMap α := m.filter (fun p => decide (p.1 < lo) || decide (hi ≤ p.1))

/-! ## Byte memory

A list of (address, byte) cells with addresses strictly rising and no cell equal to what an unlisted byte reads as. -/

/-- What a byte of memory that nothing has written reads as: 0 (R254 for buffers, R42 and R41 for scratch; log 3 for the
typed buffers). -/
def unlistedByte : BitVec 8 := 0

/-- One byte of memory. DESIGN CHOICE (log 3). -/
def Memory.read (m : List Host.Cell) (a : Nat) : BitVec 8 := NMap.get m a unlistedByte

/-- Memory with one byte written; the canonical form is kept. -/
def Memory.write (m : List Host.Cell) (a : Nat) (b : BitVec 8) : List Host.Cell :=
  if b = unlistedByte then NMap.erase m a else NMap.set m a b

/-- n bytes from an address, lowest first. -/
def Memory.readN (m : List Host.Cell) (a : Nat) : Nat → List (BitVec 8)
  | 0 => []
  | n + 1 => Memory.read m a :: Memory.readN m (a + 1) n

/-- Memory with a list of cells written in order: of two cells with one address the later stands. -/
def Memory.writeCells (m : List Host.Cell) : List Host.Cell → List Host.Cell
  | [] => m
  | c :: cs => Memory.writeCells (Memory.write m c.1 c.2) cs

/-- The cells of bytes laid from an address upward. -/
def Memory.cellsAt (a : Nat) : List (BitVec 8) → List Host.Cell
  | [] => []
  | b :: bs => (a, b) :: Memory.cellsAt (a + 1) bs

/-- Memory with bytes written from an address upward. -/
def Memory.writeBytes (m : List Host.Cell) (a : Nat) (bs : List (BitVec 8)) : List Host.Cell :=
  Memory.writeCells m (Memory.cellsAt a bs)

/-- Memory whose bytes from lo up to, not including, hi read as never written. -/
def Memory.clear (m : List Host.Cell) (lo hi : Nat) : List Host.Cell := NMap.eraseRange m lo hi

/-- The canonical form: addresses strictly rising from above lo, no cell equal to the unlisted byte. -/
def Memory.wfFrom (lo : Nat) : List Host.Cell → Bool
  | [] => true
  | (a, b) :: r => decide (lo ≤ a) && decide (b ≠ unlistedByte) && Memory.wfFrom (a + 1) r

/-- The canonical form of memory. -/
def Memory.wf (m : List Host.Cell) : Bool := Memory.wfFrom 0 m

end Sys2Proof.Machine
end

