-- ==== Sys2Proof/Syntax.lean ====
section
/-! DEFINITION. The syntax of everything a step can be: bundles and moves (R106-R120), the operations they trigger (R121), tile
command words (R122, R123), walker instructions (R125, R126), launch packets (R289-R292), the commands of the control windows
(R409, R425) and the events of the package. One constructor of Instr per row of the opcode table. -/

namespace Sys2Proof

/-- The function units and register files a move can name (R119). -/
inductive FU where
  | srf | prf | crf | ala | alb | mul | bru | lsu | syn | cmd | upd | sys | str
  | vrf | vaa | vab | vxu | vls | sfn | lac
  deriving DecidableEq, Repr

/-- The FU id of R119. -/
def FU.id : FU → Nat
  | .srf => 0x00 | .prf => 0x01 | .crf => 0x02 | .ala => 0x03 | .alb => 0x04 | .mul => 0x05 | .bru => 0x06
  | .lsu => 0x07 | .syn => 0x08 | .cmd => 0x09 | .upd => 0x0A | .sys => 0x0B | .str => 0x0C | .vrf => 0x10
  | .vaa => 0x11 | .vab => 0x12 | .vxu => 0x13 | .vls => 0x14 | .sfn => 0x15 | .lac => 0x16

/-- The FU with an id, if one has it (R119, R120). -/
def FU.ofId : Nat → Option FU
  | 0x00 => some .srf | 0x01 => some .prf | 0x02 => some .crf | 0x03 => some .ala | 0x04 => some .alb
  | 0x05 => some .mul | 0x06 => some .bru | 0x07 => some .lsu | 0x08 => some .syn | 0x09 => some .cmd
  | 0x0A => some .upd | 0x0B => some .sys | 0x0C => some .str | 0x10 => some .vrf | 0x11 => some .vaa
  | 0x12 => some .vab | 0x13 => some .vxu | 0x14 => some .vls | 0x15 => some .sfn | 0x16 => some .lac
  | _ => none

/-- The two identical scalar integer units, which share one opcode map (R121). -/
inductive AluUnit where
  | ala | alb
  deriving DecidableEq, Repr

/-- The FU of a scalar integer unit. -/
def AluUnit.fu : AluUnit → FU
  | .ala => .ala
  | .alb => .alb

/-- The two identical vector arithmetic units (R121). -/
inductive VecUnit where
  | vaa | vab
  deriving DecidableEq, Repr

/-- The FU of a vector arithmetic unit. -/
def VecUnit.fu : VecUnit → FU
  | .vaa => .vaa
  | .vab => .vab

/-- The guard of a move: GINV and GPRED (R110). -/
structure Guard where
  inv : Bool
  pred : BitVec 4
  deriving DecidableEq, Repr

/-- The source of a move (R114, R116). -/
inductive Src where
  | srf (r : BitVec 6)
  | prf (r : BitVec 4)
  | crf (r : BitVec 4)
  | vrf (r : BitVec 7)
  | mrf (r : BitVec 3)
  | sill (l : BitVec 5)
  | vsill (l : BitVec 3)
  | win (fu : FU) (port depth : BitVec 2)
  | imm (v : BitVec 11)
  | bcast (r : BitVec 6)
  | limm
  | coreIdx
  | crewSize
  | chiplet
  | argBase
  | cycle
  | tick
  | const (i : BitVec 4)
  deriving DecidableEq, Repr

/-- The destination of a move (R113): a register, an operand port, or a trigger with its opcode (DSEL - 8). -/
inductive Dst where
  | srf (r : BitVec 6)
  | prf (r : BitVec 4)
  | mrf (r : BitVec 3)
  | crf (r : BitVec 4)
  | vrf (r : BitVec 7)
  | port (fu : FU) (sel : BitVec 3)
  | trig (fu : FU) (opc : BitVec 7)
  deriving DecidableEq, Repr

/-- A move (R110). -/
structure Move where
  guard : Guard
  dst : Dst
  src : Src
  deriving DecidableEq, Repr

/-- A bundle (R106): whether it is a loop-end bundle, its long immediate if its FMT has one, and its eight slots, empty or
holding a move. With a long immediate, slots S3 and S4 hold no move (R108). -/
structure Bundle where
  loopEnd : Bool
  limm : Option Word
  s0 : Option Move
  s1 : Option Move
  s2 : Option Move
  s3 : Option Move
  s4 : Option Move
  v0 : Option Move
  v1 : Option Move
  v2 : Option Move
  deriving DecidableEq, Repr

/-! ## Tile command words -/

/-- The header of a tile command word beside its OPC (R122). -/
structure TcHdr where
  t : Bool
  b : Bool
  i : Bool
  k : Bool
  tag : BitVec 6
  deriving DecidableEq, Repr

/-- COPY (R300). -/
structure CopyBody where
  soff : BitVec 48
  doff : BitVec 48
  len : BitVec 24
  nrows : BitVec 24
  spitch : BitVec 32
  dpitch : BitVec 32
  deriving DecidableEq, Repr

/-- COPYX (R301). -/
structure CopyxBody where
  soff : BitVec 48
  doff : BitVec 48
  len : BitVec 24
  nidx : BitVec 24
  pitch : BitVec 32
  ioff : BitVec 32
  xent : BitVec 11
  sct : Bool
  skip : Bool
  deriving DecidableEq, Repr

/-- FILL (R302). -/
structure FillBody where
  doff : BitVec 48
  len : BitVec 48
  pat : BitVec 64
  pw : BitVec 2
  deriving DecidableEq, Repr

/-- ACCW (R303). -/
structure AccwBody where
  soff : BitVec 48
  doff : BitVec 48
  len : BitVec 24
  nrows : BitVec 24
  spitch : BitVec 32
  dpitch : BitVec 32
  type : BitVec 4
  op : BitVec 2
  rnd : BitVec 3
  sat : Bool
  deriving DecidableEq, Repr

/-- ATOM (R304). -/
structure AtomBody where
  doff : BitVec 48
  aop : BitVec 3
  sz : Bool
  slot : BitVec 5
  ret : Bool
  opnd : BitVec 64
  cmpv : BitVec 64
  deriving DecidableEq, Repr

/-- CHAIN (R305). -/
structure ChainBody where
  loff : BitVec 48
  rlen : BitVec 16
  nent : BitVec 24
  woff : BitVec 48
  poff : BitVec 48
  lent : BitVec 11
  wen : Bool
  pen : Bool
  tq : BitVec 6
  deriving DecidableEq, Repr

/-- SIGOP (R306). -/
structure SigopBody where
  soff : BitVec 48
  op : Bool
  val : BitVec 64
  deriving DecidableEq, Repr

/-- XFEN (R307). -/
structure XfenBody where
  qmask : BitVec 16
  deriving DecidableEq, Repr

/-- COLL (R308). -/
structure CollBody where
  soff : BitVec 48
  doff : BitVec 48
  len : BitVec 24
  peer : BitVec 9
  port : BitVec 5
  acc : Bool
  type : BitVec 4
  op : BitVec 2
  rnd : BitVec 3
  rsoff : BitVec 48
  rsen : Bool
  deriving DecidableEq, Repr

/-- MLEASE (R314). -/
structure MleaseBody where
  n : BitVec 7
  deriving DecidableEq, Repr

/-- The source of MLOADW and MLOADA: a buffer, or the crew's shared-scratch segment (R315). -/
inductive MloadSrc where
  | buf (soff : BitVec 40) (spitch : BitVec 32)
  | shared (sbase rpitch tpitch : BitVec 24) (rot : BitVec 4) (rpt : BitVec 16)
  deriving DecidableEq, Repr

/-- MLOADW and MLOADA (R315). -/
structure MloadBody where
  doff : BitVec 24
  rows : BitVec 16
  rlen : BitVec 16
  dpitch : BitVec 24
  src : MloadSrc
  deriving DecidableEq, Repr

/-- MMUL (R316). -/
structure MmulBody where
  af : BitVec 4
  wf : BitVec 4
  aoff : BitVec 21
  apitch : BitVec 20
  woff : BitVec 22
  wpitch : BitVec 21
  coff : BitVec 20
  cpitch : BitVec 16
  mlast : BitVec 5
  nlast : BitVec 6
  k : BitVec 20
  deriving DecidableEq, Repr

/-- MZERO (R318). -/
structure MzeroBody where
  coff : BitVec 20
  cpitch : BitVec 16
  rows : BitVec 16
  rlen : BitVec 16
  deriving DecidableEq, Repr

/-- MSTORE (R319). -/
structure MstoreBody where
  coff : BitVec 20
  cpitch : BitVec 16
  rows : BitVec 16
  nclast : BitVec 11
  df : BitVec 4
  rnd : BitVec 3
  sat : Bool
  cw : Bool
  doff : BitVec 40
  dpitch : BitVec 32
  sen : Bool
  soffs : BitVec 40
  ph : BitVec 4
  upd : Bool
  deriving DecidableEq, Repr

/-- MEPI (R320). -/
structure MepiBody where
  coff : BitVec 20
  cpitch : BitVec 16
  rows : BitVec 16
  nclast : BitVec 11
  boff : BitVec 20
  ben : Bool
  cen : Bool
  lo : BitVec 32
  hi : BitVec 32
  deriving DecidableEq, Repr

/-- WLOAD (R322). -/
structure WloadBody where
  soff : BitVec 40
  ni : BitVec 13
  dpc : BitVec 12
  deriving DecidableEq, Repr

/-- WRUN (R323). -/
structure WrunBody where
  pc : BitVec 12
  ioff : BitVec 40
  toff0 : BitVec 21
  toff1 : BitVec 21
  trlast : BitVec 6
  tclast : BitVec 12
  esz : BitVec 2
  tpitch : BitVec 21
  maxi : BitVec 32
  deriving DecidableEq, Repr

/-- WSTAT (R327). -/
structure WstatBody where
  doff : BitVec 40
  deriving DecidableEq, Repr

/-- ISECT (R326). -/
structure IsectBody where
  el : BitVec 2
  clr : Bool
  nw : BitVec 16
  xboff : BitVec 40
  xvoff : BitVec 40
  yboff : BitVec 40
  yvoff : BitVec 40
  deriving DecidableEq, Repr

/-- The common layout of the sort commands (R328). -/
structure SortBody where
  kt : BitVec 4
  desc : Bool
  pw : BitVec 2
  n : BitVec 24
  koff : BitVec 40
  poff : BitVec 40
  dkoff : BitVec 40
  dpoff : BitVec 40
  deriving DecidableEq, Repr

/-- UOPEN (R332). -/
structure UopenBody where
  uop : BitVec 5
  nosp : Bool
  deriving DecidableEq, Repr

/-- UQUOTA (R332). -/
structure UquotaBody where
  rq : BitVec 20
  ren : Bool
  roff : BitVec 40
  deriving DecidableEq, Repr

/-- USPILL (R332). -/
structure UspillBody where
  nosp : Bool
  clr : Bool
  apply : Bool
  deriving DecidableEq, Repr

/-- SIGADD and SIGSET (R339). -/
structure SigBody where
  soff : BitVec 48
  val : BitVec 64
  deriving DecidableEq, Repr

/-- SIGWAIT (R339). -/
structure SigwaitBody where
  soff : BitVec 48
  val : BitVec 64
  cmp : BitVec 3
  tout : BitVec 18
  deriving DecidableEq, Repr

/-! ## Walker instructions (R125, R126) -/

/-- A walker register w0-w15. -/
abbrev WReg := BitVec 4

/-! ## Launch packets (R289-R292) -/

/-- INVOKE (R290). -/
structure InvokePkt where
  bar : Bool
  slot : BitVec 8
  argent : BitVec 3
  argoff : BitVec 48
  xh0 : BitVec 16
  xh1 : BitVec 16
  xh2 : BitVec 16
  xh3 : BitVec 16
  xh4 : BitVec 16
  xh5 : BitVec 16
  xh6 : BitVec 16
  xh7 : BitVec 16
  deriving DecidableEq, Repr

/-- A condition of a BARRIER: export index and signal offset (R291). -/
structure BarCond where
  xh : BitVec 16
  off : BitVec 48
  deriving DecidableEq, Repr

/-- BARRIER (R291). -/
structure BarrierPkt where
  bar : Bool
  any : Bool
  use : BitVec 4
  c0 : BarCond
  c1 : BarCond
  c2 : BarCond
  c3 : BarCond
  acode : BitVec 32
  tout : BitVec 32
  deriving DecidableEq, Repr

/-- SIGNAL (R292). -/
structure SignalPkt where
  bar : Bool
  op : Bool
  xh : BitVec 16
  off : BitVec 48
  value : BitVec 64
  deriving DecidableEq, Repr

/-- COPY as a launch packet (R292). -/
structure CopyPkt where
  bar : Bool
  sxh : BitVec 16
  soff : BitVec 48
  dxh : BitVec 16
  doff : BitVec 48
  len : BitVec 40
  deriving DecidableEq, Repr

/-- RESET (R292). -/
structure ResetPkt where
  bar : Bool
  deriving DecidableEq, Repr

/-! ## What acts from outside (20_outside.md) -/

/-- Where a hardware error strikes (R231, R422): the places whose uncorrectable errors poison what they hold, and the two
kinds of corrected error that SYS.DIAG counts (R159). -/
inductive ErrLoc where
  /-- the 64-byte granule of a buffer byte, in the cache or in HBM -/
  | buffer (bid : BitVec 24) (off : BitVec 40)
  /-- a granule of a core's private scratch -/
  | privScratch (core : BitVec 8) (off : BitVec 20)
  /-- a granule of a chiplet's shared scratch -/
  | sharedScratch (site : BitVec 4) (off : BitVec 24)
  /-- a granule of a typed buffer: 0 W, 1 A, 2 C -/
  | typed (site : BitVec 4) (array : BitVec 3) (buf : BitVec 2) (off : BitVec 22)
  /-- a bundle of an overlay in a core's instruction memory -/
  | imem (core : BitVec 8) (entry : BitVec 2) (bundle : BitVec 13)
  /-- the trap slot or the pre-emption slot of a core's shadow storage (R224) -/
  | shadow (core : BitVec 8) (preempt : Bool)
  /-- a sill slot: 0-31 L, 32-39 LV -/
  | sill (core : BitVec 8) (slot : BitVec 6)
  /-- a corrected error of a core's private scratch -/
  | privCorrected (core : BitVec 8)
  /-- a corrected error of a chiplet's shared scratch -/
  | sharedCorrected (site : BitVec 4)
  /-- a register-file parity error; a second failure of the re-read is uncorrectable -/
  | regParity (core : BitVec 8) (again : Bool)
  deriving DecidableEq, Repr

/-- The states of a site (R352). -/
inductive SiteSt where
  | ready | draining | fenced | calibrating | absent
  deriving DecidableEq, Repr

/-- The junction-temperature limits of R424: 100 and 105 degrees C. -/
inductive Thermal where
  | warm | hot
  deriving DecidableEq, Repr

/-- The masks of a partition (R27). -/
structure Masks where
  core : BitVec 256
  array : BitVec 128
  sort : BitVec 64
  copy : BitVec 128
  deriving DecidableEq, Repr

/-- The registers without behaviour of their own that an outside party writes (R5, R27, R47, R356, R359, R410, R409, R425). A management
mailbox is that of PF 0, that of PF 1, or, as 2, the sideband's. -/
inductive OutReg where
  | cw (part : BitVec 6) (i : BitVec 3)
  | fsel (part : BitVec 6)
  | fcnt (part : BitVec 6)
  | aperture (part : BitVec 6)
  | apcount (part : BitVec 6)
  | rtpl0 (part : BitVec 6) (slot : BitVec 8)
  | rtpl1 (part : BitVec 6) (slot : BitVec 8)
  | qdesc0 (part : BitVec 6) (q : BitVec 4)
  | qdesc1 (part : BitVec 6) (q : BitVec 4)
  | mw (box : BitVec 2) (i : BitVec 3)
  | mdata (box : BitVec 2) (i : BitVec 8)
  | mstate
  | mbimg (core : BitVec 8)
  | mbarg (core : BitVec 8)
  | mbctl (core : BitVec 8)
  | discovery (site : BitVec 5) (w : BitVec 2)
  | rootRcb (w : BitVec 3)
  | defaultKey (part : BitVec 6)
  deriving DecidableEq, Repr

/-- A unit of a COLL arriving from a peer package (R308, R413, R414): at most 4 KiB of data, then a remote signal. -/
structure CollUnit where
  peer : BitVec 9
  handle : Handle
  doff : BitVec 48
  data : List Byte
  acc : Bool
  type : BitVec 4
  op : BitVec 2
  rnd : BitVec 3
  rsen : Bool
  rsoff : BitVec 48
  deriving DecidableEq, Repr

/-- The SPDM requests that act on or read the part (R421). -/
inductive SpdmReq where
  | measurements
  | session
  | keyMaterial (part : BitVec 6) (slot : BitVec 11) (key : Bits512)
  deriving DecidableEq, Repr

/-- The rows of the opcode table: everything one step of the package can be. The constructors with fields stand first. -/
inductive Instr where
  /-- mov (R112): A bundle issues and its moves read their guards and sources together, then write their destinations at the end of the bundle. -/
  | move (b : Bundle)
  /-- ALA.ADD (R160): ALA or ALB writes the 64-bit wrapped sum of ports A and B into D. -/
  | add (u : AluUnit)
  /-- ALA.SUB (R160): ALA or ALB writes A minus B modulo 2^64 into D. -/
  | sub (u : AluUnit)
  /-- ALA.ADDW (R160): ALA or ALB writes the sign-extended 32-bit sum of A and B into D. -/
  | addw (u : AluUnit)
  /-- ALA.SUBW (R160): ALA or ALB writes the sign-extended 32-bit difference of A and B into D. -/
  | subw (u : AluUnit)
  /-- ALA.AND (R160): ALA or ALB writes A AND B into D. -/
  | and (u : AluUnit)
  /-- ALA.OR (R160): ALA or ALB writes A OR B into D. -/
  | or (u : AluUnit)
  /-- ALA.XOR (R160): ALA or ALB writes A XOR B into D. -/
  | xor (u : AluUnit)
  /-- ALA.ANDN (R160): ALA or ALB writes A AND NOT B into D. -/
  | andn (u : AluUnit)
  /-- ALA.SHL (R160): ALA or ALB shifts A left by B[7:0] at width 64. -/
  | shl (u : AluUnit)
  /-- ALA.SHR (R160): ALA or ALB shifts A right logically by B[7:0] at width 64. -/
  | shr (u : AluUnit)
  /-- ALA.SRA (R160): ALA or ALB shifts A right arithmetically by B[7:0] at width 64. -/
  | sra (u : AluUnit)
  /-- ALA.SHLW (R160): ALA or ALB shifts A[31:0] left and sign-extends the 32-bit result. -/
  | shlw (u : AluUnit)
  /-- ALA.SHRW (R160): ALA or ALB shifts A[31:0] right logically and sign-extends the 32-bit result. -/
  | shrw (u : AluUnit)
  /-- ALA.SRAW (R160): ALA or ALB shifts A[31:0] right arithmetically and sign-extends the 32-bit result. -/
  | sraw (u : AluUnit)
  /-- ALA.ROL (R160): ALA or ALB rotates A left by B[7:0] mod 64. -/
  | rol (u : AluUnit)
  /-- ALA.ROR (R160): ALA or ALB rotates A right by B[7:0] mod 64. -/
  | ror (u : AluUnit)
  /-- ALA.CLZ (R160): ALA or ALB counts the leading zero bits of A. -/
  | clz (u : AluUnit)
  /-- ALA.CTZ (R160): ALA or ALB counts the trailing zero bits of A. -/
  | ctz (u : AluUnit)
  /-- ALA.POPC (R160): ALA or ALB counts the 1 bits of A. -/
  | popc (u : AluUnit)
  /-- ALA.BREV (R160): ALA or ALB reverses the bit order of A. -/
  | brev (u : AluUnit)
  /-- ALA.BSWAP (R160): ALA or ALB reverses the byte order of A. -/
  | bswap (u : AluUnit)
  /-- ALA.EQ (R160): ALA or ALB writes A = B into result port F. -/
  | eq (u : AluUnit)
  /-- ALA.NE (R160): ALA or ALB writes A ≠ B into result port F. -/
  | ne (u : AluUnit)
  /-- ALA.LT (R160): ALA or ALB writes the signed compare A < B into F. -/
  | lt (u : AluUnit)
  /-- ALA.LTU (R160): ALA or ALB writes the unsigned compare A < B into F. -/
  | ltu (u : AluUnit)
  /-- ALA.LE (R160): ALA or ALB writes the signed compare A ≤ B into F. -/
  | le (u : AluUnit)
  /-- ALA.LEU (R160): ALA or ALB writes the unsigned compare A ≤ B into F. -/
  | leu (u : AluUnit)
  /-- ALA.MIN (R160): ALA or ALB writes the signed minimum of A and B. -/
  | min (u : AluUnit)
  /-- ALA.MINU (R160): ALA or ALB writes the unsigned minimum of A and B. -/
  | minu (u : AluUnit)
  /-- ALA.MAX (R160): ALA or ALB writes the signed maximum of A and B. -/
  | max (u : AluUnit)
  /-- ALA.MAXU (R160): ALA or ALB writes the unsigned maximum of A and B. -/
  | maxu (u : AluUnit)
  /-- ALA.SEL (R160): ALA or ALB selects A when P[0] is 1, else B. -/
  | sel (u : AluUnit)
  /-- ALA.SEXT8 (R160): ALA or ALB sign-extends A[7:0]. -/
  | sext8 (u : AluUnit)
  /-- ALA.SEXT16 (R160): ALA or ALB sign-extends A[15:0]. -/
  | sext16 (u : AluUnit)
  /-- ALA.SEXT32 (R160): ALA or ALB sign-extends A[31:0]. -/
  | sext32 (u : AluUnit)
  /-- ALA.ZEXT8 (R160): ALA or ALB zero-extends A[7:0]. -/
  | zext8 (u : AluUnit)
  /-- ALA.ZEXT16 (R160): ALA or ALB zero-extends A[15:0]. -/
  | zext16 (u : AluUnit)
  /-- ALA.ZEXT32 (R160): ALA or ALB zero-extends A[31:0]. -/
  | zext32 (u : AluUnit)
  /-- ALA.EXTR (R161): ALA or ALB extracts the bit field of A described by B. -/
  | extr (u : AluUnit)
  /-- ALA.INS (R161): ALA or ALB inserts A's low bits into P at the field described by B. -/
  | ins (u : AluUnit)
  /-- ALA.PASS (R160): ALA or ALB copies A into D. -/
  | pass (u : AluUnit)
  /-- VAA.VADD (R186): VAA or VAB adds two floating tiles element by element with one rounding. -/
  | vadd (u : VecUnit)
  /-- VAA.VSUB (R186): VAA or VAB subtracts floating tiles. -/
  | vsub (u : VecUnit)
  /-- VAA.VMUL (R186): VAA or VAB multiplies floating tiles. -/
  | vmul (u : VecUnit)
  /-- VAA.VFMA (R186): VAA or VAB computes A × B + C with one rounding. -/
  | vfma (u : VecUnit)
  /-- VAA.VFMS (R186): VAA or VAB computes A × B − C with one rounding. -/
  | vfms (u : VecUnit)
  /-- VAA.VFNMA (R186): VAA or VAB computes C − A × B with one rounding. -/
  | vfnma (u : VecUnit)
  /-- VAA.VFMAC (R187): VAA or VAB computes a fused multiply-add and also writes the result into its own port C. -/
  | vfmac (u : VecUnit)
  /-- VAA.VMIN (R186): VAA or VAB writes the element-wise floating minimum. -/
  | vmin (u : VecUnit)
  /-- VAA.VMAX (R186): VAA or VAB writes the element-wise floating maximum. -/
  | vmax (u : VecUnit)
  /-- VAA.VABS (R186): VAA or VAB clears each element's sign. -/
  | vabs (u : VecUnit)
  /-- VAA.VNEG (R186): VAA or VAB inverts each element's sign. -/
  | vneg (u : VecUnit)
  /-- VAA.VCMP (R188): VAA or VAB compares floating elements under a condition and writes a mask to M. -/
  | vcmp (u : VecUnit)
  /-- VAA.VSEL (R188): VAA or VAB selects B or A per element under the mask in port C. -/
  | vsel (u : VecUnit)
  /-- VAA.VCVT (R191): VAA or VAB converts a tile between element types, including BFP encode and decode. -/
  | vcvt (u : VecUnit)
  /-- VAA.VRND (R186): VAA or VAB rounds each element to an integral value in its format. -/
  | vrnd (u : VecUnit)
  /-- VAA.VIADD (R189): VAA or VAB adds integer elements with wrap or saturation. -/
  | viadd (u : VecUnit)
  /-- VAA.VISUB (R189): VAA or VAB subtracts integer elements. -/
  | visub (u : VecUnit)
  /-- VAA.VIMUL (R189): VAA or VAB multiplies integer elements, low half. -/
  | vimul (u : VecUnit)
  /-- VAA.VIMULH (R189): VAA or VAB writes the high half of integer products. -/
  | vimulh (u : VecUnit)
  /-- VAA.VIMAD (R189): VAA or VAB computes A × B + C on integer elements. -/
  | vimad (u : VecUnit)
  /-- VAA.VIMIN (R189): VAA or VAB writes the integer minimum per element. -/
  | vimin (u : VecUnit)
  /-- VAA.VIMAX (R189): VAA or VAB writes the integer maximum per element. -/
  | vimax (u : VecUnit)
  /-- VAA.VIABS (R189): VAA or VAB writes the integer absolute value per element. -/
  | viabs (u : VecUnit)
  /-- VAA.VICMP (R188): VAA or VAB compares integer elements and writes a mask to M. -/
  | vicmp (u : VecUnit)
  /-- VAA.VAND (R190): VAA or VAB writes A AND B per element. -/
  | vand (u : VecUnit)
  /-- VAA.VOR (R190): VAA or VAB writes A OR B per element. -/
  | vor (u : VecUnit)
  /-- VAA.VXOR (R190): VAA or VAB writes A XOR B per element. -/
  | vxor (u : VecUnit)
  /-- VAA.VSHL (R190): VAA or VAB shifts each element left by its own amount. -/
  | vshl (u : VecUnit)
  /-- VAA.VSHR (R190): VAA or VAB shifts each element right logically. -/
  | vshr (u : VecUnit)
  /-- VAA.VSRA (R190): VAA or VAB shifts each element right arithmetically. -/
  | vsra (u : VecUnit)
  /-- VAA.VROT (R190): VAA or VAB rotates each element left. -/
  | vrot (u : VecUnit)
  /-- VAA.VDOT4 (R192): VAA or VAB adds four 8-bit products into each I32 accumulator element. -/
  | vdot4 (u : VecUnit)
  /-- VAA.VDOTB (R192): VAA or VAB adds two BF16 products into each FP32 element with one rounding. -/
  | vdotb (u : VecUnit)
  /-- TIER2_DEVICE_FAILURE (R416): A tier-2 device fails and every extent it held is marked lost. -/
  | tier2DeviceFailure (mem : BitVec 3)
  /-- UNCORRECTABLE_ERROR (R231): An uncorrectable memory error poisons the granule that holds it. -/
  | uncorrectableError (loc : ErrLoc)
  /-- COPY (R300): A copy engine copies rows of bytes from H0's view to H1's view. -/
  | copy (h : TcHdr) (b : CopyBody)
  /-- COPYX (R301): A copy engine gathers or scatters rows through a list of row indices. -/
  | copyx (h : TcHdr) (b : CopyxBody)
  /-- FILL (R302): A copy engine fills a range with a repeated pattern. -/
  | fill (h : TcHdr) (b : FillBody)
  /-- ACCW (R303): A copy engine combines source elements into destination elements by add, minimum or maximum. -/
  | accw (h : TcHdr) (b : AccwBody)
  /-- ATOM (R304): A copy engine performs an atomic read-modify-write and optionally lands the old value. -/
  | atom (h : TcHdr) (b : AtomBody)
  /-- CHAIN (R305): A copy engine runs a list of command words from memory, waiting and posting signals. -/
  | chain (h : TcHdr) (b : ChainBody)
  /-- SIGOP (R306): A copy engine adds to or sets a signal atomically. -/
  | sigop (h : TcHdr) (b : SigopBody)
  /-- XFEN (R307): A copy engine completes once earlier copy writes of its queue and masked queues are made. -/
  | xfen (h : TcHdr) (b : XfenBody)
  /-- COLL (R308): A copy engine writes or accumulates bytes into a peer package over Foano and optionally signals it. -/
  | coll (h : TcHdr) (b : CollBody)
  /-- MLEASE (R314): A matrix array queues a lease request for N counted commands. -/
  | mlease (h : TcHdr) (b : MleaseBody)
  /-- MRELEASE (R314): A matrix array ends its pusher's lease. -/
  | mrelease (h : TcHdr)
  /-- MLOADW (R315): A matrix array fills its W buffer from memory or shared scratch. -/
  | mloadw (h : TcHdr) (b : MloadBody)
  /-- MLOADA (R315): A matrix array fills its A buffer from memory or shared scratch. -/
  | mloada (h : TcHdr) (b : MloadBody)
  /-- MMUL (R316): A matrix array accumulates A × W into C in fixed groups of 16. -/
  | mmul (h : TcHdr) (b : MmulBody)
  /-- MZERO (R318): A matrix array writes +0 into a C region. -/
  | mzero (h : TcHdr) (b : MzeroBody)
  /-- MSTORE (R319): A matrix array converts a C region and writes it, or sends it as update pairs, with an optional status word. -/
  | mstore (h : TcHdr) (b : MstoreBody)
  /-- MEPI (R320): A matrix array adds a bias row and clamps a C region in place. -/
  | mepi (h : TcHdr) (b : MepiBody)
  /-- WLOAD (R322): A walker copies instructions into its program store. -/
  | wload (h : TcHdr) (b : WloadBody)
  /-- WRUN (R323): A walker loads its registers and tile slots and runs its program until DONE. -/
  | wrun (h : TcHdr) (b : WrunBody)
  /-- WSTAT (R327): A walker writes a 128-byte status record. -/
  | wstat (h : TcHdr) (b : WstatBody)
  /-- ISECT (R326): An intersect unit is configured and optionally steps over NW bitmap words. -/
  | isect (h : TcHdr) (b : IsectBody)
  /-- LDW (R324): The walker loads a 32-bit word from H0 or H1 into a register. -/
  | walkerLdw (wd wa : WReg) (imm : BitVec 14)
  /-- LDH (R324): The walker loads a zero-extended halfword. -/
  | walkerLdh (wd wa : WReg) (imm : BitVec 14)
  /-- LDB (R324): The walker loads a zero-extended byte. -/
  | walkerLdb (wd wa : WReg) (imm : BitVec 14)
  /-- ADDW (R324): The walker adds two registers modulo 2^32. -/
  | walkerAddw (wd wa wb : WReg)
  /-- SUBW (R324): The walker subtracts two registers modulo 2^32. -/
  | walkerSubw (wd wa wb : WReg)
  /-- ANDW (R324): The walker ANDs two registers. -/
  | walkerAndw (wd wa wb : WReg)
  /-- SHRW (R324): The walker shifts a register right logically by the immediate. -/
  | walkerShrw (wd wa : WReg) (imm : BitVec 14)
  /-- POPC (R324): The walker counts the 1 bits of a register. -/
  | walkerPopc (wd wa : WReg)
  /-- PFXP (R324): The walker counts the 1 bits of a register below a bit position. -/
  | pfxp (wd wa wb : WReg)
  /-- BNZ (R324): The walker branches when a register is non-zero. -/
  | bnz (wa : WReg) (imm : BitVec 14)
  /-- BZ (R324): The walker branches when a register is zero. -/
  | bz (wa : WReg) (imm : BitVec 14)
  /-- JMP (R324): The walker jumps to the immediate index. -/
  | walkerJmp (imm : BitVec 14)
  /-- EMIT (R324): The walker writes one element into the current tile slot. -/
  | walkerEmit (wa wb : WReg)
  /-- EMROW (R324): The walker copies a whole row from H0 into the current tile slot. -/
  | emrow (wa wb : WReg)
  /-- ISTEP (R326): The walker steps the intersect unit on two bitmap words and writes the match count. -/
  | istep (wd wa wb : WReg)
  /-- SORT (R329): A sort engine stably sorts runs of 4,096 keys with payloads. -/
  | sort (h : TcHdr) (b : SortBody)
  /-- TOPK (R329): A sort engine writes the K elements ranked first after an optional start index. -/
  | topk (h : TcHdr) (b : SortBody) (k : BitVec 9) (aen : Bool) (afti : BitVec 24)
  /-- MERGE (R329): A sort engine merges two adjacent sorted runs. -/
  | merge (h : TcHdr) (b : SortBody) (n2 : BitVec 24)
  /-- SELECT (R329): A sort engine writes the element of a given rank. -/
  | select (h : TcHdr) (b : SortBody) (rank : BitVec 24)
  /-- SEARCH (R329): A sort engine writes the lower bound of each query. -/
  | search (h : TcHdr) (b : SortBody) (nq : BitVec 24)
  /-- UNIQ (R329): A sort engine writes each distinct sorted key once and their count. -/
  | uniq (h : TcHdr) (b : SortBody) (coff : BitVec 40)
  /-- UOPEN (R332): Shutter control makes a view an update region with an operator. -/
  | uopen (h : TcHdr) (b : UopenBody)
  /-- UCLOSE (R332): Shutter control waits for streams to detach and pairs to be accepted, applies the bins and closes the region. -/
  | uclose (h : TcHdr)
  /-- UQUOTA (R332): Shutter control sets a region's bin cap and optionally reports its spills and occupancy. -/
  | uquota (h : TcHdr) (b : UquotaBody)
  /-- USPILL (R332): Shutter control sets the no-spill attribute, clears SPILLS or applies every bin. -/
  | uspill (h : TcHdr) (b : UspillBody)
  /-- SIGADD (R339): The signal unit adds a value to a signal atomically. -/
  | sigadd (h : TcHdr) (b : SigBody)
  /-- SIGSET (R339): The signal unit stores a value into a signal atomically. -/
  | sigset (h : TcHdr) (b : SigBody)
  /-- SIGWAIT (R339): The signal unit holds its queue until a signal comparison holds. -/
  | sigwait (h : TcHdr) (b : SigwaitBody)
  /-- LAUNCH_PACKET_WRITE (R286): A 64-byte write to a launch queue window enqueues a packet, or is dropped and counted. -/
  | launchPacketWrite (part : BitVec 6) (q : BitVec 4) (off : BitVec 12) (bytes : BitVec 7) (pkt : Bits512)
  /-- INVOKE (R31): The hub checks residency and arguments, reserves node entries and starts a graph instance. -/
  | invoke (p : InvokePkt)
  /-- BARRIER (R291): A barrier packet starts and evaluates its signal conditions, completing OK, ABORT or BAD_ARGS. -/
  | barrier (p : BarrierPkt)
  /-- SIGNAL (R292): A SIGNAL packet adds to or sets a signal atomically. -/
  | signal (p : SignalPkt)
  /-- COPY_PACKET (R292): A COPY packet runs a copy on a copy engine of the partition. -/
  | copyPacket (p : CopyPkt)
  /-- RESET (R292): A RESET packet waits for earlier packets, then returns the queue to RUNNING and zeroes its completion signal. -/
  | reset (p : ResetPkt)
  /-- SITE_STATE_CHANGE (R353): A site's discovery-table state changes and READY nodes of its class are re-evaluated. -/
  | siteStateChange (site : BitVec 5) (dest : SiteSt)
  /-- DRAIN_COMPLETE (R353): A draining site holding no crew, entry or access becomes fenced. -/
  | drainComplete (site : BitVec 5)
  /-- CALIBRATION_DONE (R353): A calibrating site passes or fails calibration and becomes ready or fenced. -/
  | calibrationDone (site : BitVec 5) (pass : Bool)
  /-- FORCED_DRAIN (R423): An uncorrectable error or a drain unfinished after 100 ms makes firmware force a drain, faulting the site's crews. -/
  | forcedDrain (site : BitVec 5)
  /-- THERMAL_LIMIT (R424): A chiplet's junction temperature reaches 100 °C or 105 °C and it is slowed, drained or the package is shut down. -/
  | thermalLimit (site : BitVec 5) (limit : Thermal)
  /-- GO (R48): A firmware write of 1 to MBCTL.GO checks and loads a boot-mailbox image and starts a strand, or refuses it. -/
  | go (core : BitVec 8)
  /-- APERTURE_ACCESS (R411): A host access to BAR1 reaches a byte of the exported view after the capability check, or is refused. -/
  | apertureAccess (part : BitVec 6) (wr : Bool) (off : BitVec 30) (bytes : BitVec 7) (data : Bits512)
  /-- REGISTER_WRITE (R5): A write to a register without behaviour of its own updates its fields under their Access codes. -/
  | registerWrite (r : OutReg) (v : Word)
  /-- RESUME (R65): The owner resumes a FAULTED node, restarting its crew or retrying its engine entry. -/
  | resume (node : Word)
  /-- SKIP (R65): The owner completes a faulting engine entry as FAILED and resumes the queue and crew. -/
  | skip (node : Word)
  /-- ABORT_NODE (R65): The owner aborts a FAULTED node, returning its resources without releasing its outputs. -/
  | abortNode (node : Word)
  /-- ABORT_GRAPH (R65): The owner aborts every unretired node of a graph instance, and its INVOKE completes ABORTED. -/
  | abortGraph (rcb : Word)
  /-- LOAD (R357): The owner loads images into a resident slot, which ends PINNED or REFUSED. -/
  | load (slot x0 x1 x2 x3 : Word)
  /-- UNPIN (R32): The owner unpins a resident slot once its last instance retires. -/
  | unpin (slot : Word)
  /-- HALLOC (R409): The host allocates a buffer under the partition RCB and receives its handle. -/
  | halloc (size attr : Word)
  /-- EXPORT (R409): The host writes a checked handle into the launch export table. -/
  | exportCmd (idx handle : Word)
  /-- WEXPORT (R287): The owner writes a launch queue's window handle into the export table. -/
  | wexport (idx q : Word)
  /-- RCBWR (R359): The owner writes the RW fields of an RCB. -/
  | rcbwr (idx w0 w1 w2 w3 : Word)
  /-- JOBDEL (R359): The owner destroys an unused job RCB, or receives RCB_BUSY. -/
  | jobdel (idx : Word)
  /-- HOLDWR (R252): The owner writes a buffer's further holder RCBs. -/
  | holdwr (x h1 h2 h3 : Word)
  /-- QCREATE (R363): The owner creates a launch queue descriptor. -/
  | qcreate (q w0 w1 : Word)
  /-- QDESTROY (R363): The owner destroys a launch queue descriptor with no outstanding packets. -/
  | qdestroy (q : Word)
  /-- DRAIN (R423): An owner requests that a compute site drain. -/
  | drain (site : Word)
  /-- RECAL (R353): An owner requests recalibration of a fenced site. -/
  | recal (site : Word)
  /-- RETURN (R353): An owner returns a fenced site to ready. -/
  | returnCmd (site : Word)
  /-- KEYREQ (R360): The owner requests key material for a key slot, delivered by SPDM. -/
  | keyreq (slot : Word)
  /-- FREC (R62): The owner frees records from the head of a fault ring. -/
  | frec (n : Word)
  /-- IMGOPEN (R425): The management mailbox erases the inactive firmware slot for writing. -/
  | imgopen (slot : Word)
  /-- IMGWRITE (R425): The management mailbox writes image bytes from MDATA into the slot. -/
  | imgwrite (off len : Word)
  /-- SETPKG (R425): The management mailbox sets the package number in the domain. -/
  | setpkg (n : Word)
  /-- ROUTE (R413): The management mailbox writes one entry of the domain route table. -/
  | route (pkg ports : Word)
  /-- FLIT_RETRY (R412): A Foano flit fails its CRC and is resent from the replay buffer. -/
  | flitRetry (port : BitVec 4)
  /-- LANE_RETRAIN (R412): A Foano lane fails retraining and the port drops to 4 lanes or goes down. -/
  | laneRetrain (port : BitVec 4)
  /-- UCIE_LINK_RETRAIN (R422): A fabric link error retrains the link, and a site that cannot retrain goes absent. -/
  | ucieLinkRetrain (link : BitVec 6) (ok : Bool)
  /-- TIER2_DEVICE_JOIN (R416): A replacement tier-2 device joins, empty, when its CXL port next trains. -/
  | tier2DeviceJoin (mem : BitVec 3)
  /-- COLL_ARRIVAL (R414): A COLL write, accumulate or remote signal arriving over the Foano links is applied at the receiving MEM, or refused when it comes from a package that has left the domain. -/
  | collArrival (u : CollUnit)
  /-- MASK_WRITE (R218): A write of a partition's core, array, sort or copy masks fixes the private-scratch and typed-buffer shares, or is refused with SHARE_BUSY or for too many sharers. -/
  | maskWrite (part : BitVec 6) (m : Masks)
  /-- PARTITION_PORT_MOVE (R407): A request moves a partition to the other host port, or completes with RCB_BUSY while a level-2 or level-3 RCB lives under it. -/
  | partitionPortMove (part : BitVec 6) (port : Bool)
  /-- SPDM_REQUEST (R421): An SPDM 1.2 message over DOE on a PF is answered with measurements or sets up the secure session through which key material travels. -/
  | spdmRequest (r : SpdmReq)
  /-- RESULT_WRITE (R145): A fixed-latency operation writes its result port at issue clock plus latency, shifting the window by one depth. -/
  | resultWrite
  /-- MUL.MULL (R162): MUL writes the low 64 bits of A × B. -/
  | mull
  /-- MUL.MULH (R162): MUL writes the high 64 bits of the signed product. -/
  | mulh
  /-- MUL.MULHU (R162): MUL writes the high 64 bits of the unsigned product. -/
  | mulhu
  /-- MUL.MULW (R162): MUL writes the sign-extended 32-bit product of A and B. -/
  | mulw
  /-- MUL.DIV (R162): MUL writes the signed quotient truncated towards zero. -/
  | div
  /-- MUL.DIVU (R162): MUL writes the unsigned quotient. -/
  | divu
  /-- MUL.REM (R162): MUL writes the signed remainder with the sign of A. -/
  | rem
  /-- MUL.REMU (R162): MUL writes the unsigned remainder. -/
  | remu
  /-- BRU.JMP (R164): BRU makes bundle index A the next bundle issued. -/
  | jmp
  /-- BRU.JMPR (R164): BRU branches to the index of this bundle plus A. -/
  | jmpr
  /-- BRU.CALL (R164): BRU branches to A and writes the return index n + 1 into BRU.D0. -/
  | call
  /-- BRU.RET (R164): BRU branches to A, exactly as JMP. -/
  | ret
  /-- BRU.LOOP (R166): BRU sets LC, ESC, p8-p15, LHEAD and optionally RRB for a modulo loop. -/
  | loop
  /-- BRU.TRAP (R165): BRU raises the strand trap SWTRAP with the code in A[15:0]. -/
  | trap
  /-- BRU.HALT (R165): BRU ends the strand after this bundle, leaving issued memory and engine work to continue. -/
  | halt
  /-- BRU.NOPW (R165): BRU pauses issue for A[15:0] clocks. -/
  | nopw
  /-- NOPW_PAUSE_END (R165): The NOPW count expires and the next bundle issues. -/
  | nopwPauseEnd
  /-- SYS.CSRR (R153): SYS reads a system register into D at t + 2. -/
  | csrr
  /-- SYS.CSRW (R153): SYS writes A into a system register field by field under its Access codes and returns the old value. -/
  | csrw
  /-- SYS.CSRS (R153): SYS sets the bits of A in a system register and returns the old value. -/
  | csrs
  /-- SYS.CSRC (R153): SYS clears the bits of A in a system register and returns the old value. -/
  | csrc
  /-- SYS.ALLOC (R259): SYS holds issue while the allocator creates a buffer and returns its handle, or refuses with a reason or ALLOC_EXHAUSTED. -/
  | alloc
  /-- ALLOC_HOLD_END (R259): The 96-clock ALLOC hold ends, the bundle's moves and results take effect, and any deferred stop is taken. -/
  | allocHoldEnd
  /-- SYS.FREE (R260): SYS decrements the buffer's reference count at its shard. -/
  | free
  /-- SYS.RETAIN (R260): SYS increments the reference count and returns a new handle with dropped rights and a narrowed view. -/
  | retain
  /-- SYS.HAND (R262): SYS passes a buffer to a successor node through a handoff entry and sets OWN to that successor. -/
  | hand
  /-- SYS.HINFO (R263): SYS returns the selected word of a buffer's pinned entry. -/
  | hinfo
  /-- SYS.HLD (R155): SYS loads a handle-table entry into result port H with rights reduced by B. -/
  | hld
  /-- SYS.TRET (R156): SYS returns from a strand trap handler, restoring the trap slot and resuming at TSTAT.RET. -/
  | tret
  /-- SYS.YIELD (R157): SYS ends the current slice of the time-sliced resource holding the core. -/
  | yield
  /-- SYS.DTRD (R158): SYS reads a word of a site's discovery-table entry. -/
  | dtrd
  /-- SYS.DIAG (R159): SYS returns a diagnostic count or identity value. -/
  | diag
  /-- LSU.LDB (R235): LSU loads a sign-extended byte from scratch. -/
  | ldb
  /-- LSU.LDBU (R235): LSU loads a zero-extended byte from scratch. -/
  | ldbu
  /-- LSU.LDH (R235): LSU loads a sign-extended halfword from scratch. -/
  | ldh
  /-- LSU.LDHU (R235): LSU loads a zero-extended halfword from scratch. -/
  | ldhu
  /-- LSU.LDW (R235): LSU loads a sign-extended word from scratch. -/
  | ldw
  /-- LSU.LDWU (R235): LSU loads a zero-extended word from scratch. -/
  | ldwu
  /-- LSU.LDD (R235): LSU loads a doubleword from scratch. -/
  | ldd
  /-- LSU.STB (R236): LSU stores a byte to scratch. -/
  | stb
  /-- LSU.STH (R236): LSU stores a halfword to scratch. -/
  | sth
  /-- LSU.STW (R236): LSU stores a word to scratch. -/
  | stw
  /-- LSU.STD (R236): LSU stores a doubleword to scratch. -/
  | std
  /-- LSU.GLDB (R237): LSU loads a byte of a global buffer into a scalar sill slot. -/
  | gldb
  /-- LSU.GLDH (R237): LSU loads a halfword of a global buffer into a scalar sill slot. -/
  | gldh
  /-- LSU.GLDW (R237): LSU loads a word of a global buffer into a scalar sill slot. -/
  | gldw
  /-- LSU.GLDD (R237): LSU loads a doubleword of a global buffer into a scalar sill slot. -/
  | gldd
  /-- LSU.GSTB (R238): LSU stores a byte to a global buffer through the write-combining buffer. -/
  | gstb
  /-- LSU.GSTH (R238): LSU stores a halfword to a global buffer. -/
  | gsth
  /-- LSU.GSTW (R238): LSU stores a word to a global buffer. -/
  | gstw
  /-- LSU.GSTD (R238): LSU stores a doubleword to a global buffer. -/
  | gstd
  /-- LSU.PREF (R239): LSU fetches a global line into the read cache without a result. -/
  | pref
  /-- SYN.ACQ (R277): SYN requests a latch in shared or exclusive mode, optionally binding a buffer, and lands the grant code in a sill slot. -/
  | acq
  /-- SYN.TACQ (R277): SYN tries a latch once and lands granted or not granted without waiting. -/
  | tacq
  /-- SYN.REL (R277): SYN drains the strand's writes and update streams, then releases the latch and lands the result. -/
  | rel
  /-- SYN.FENCE (R277): SYN lands 1 once every earlier CORE write of the strand has been made. -/
  | fence
  /-- SYN.XFENCE (R277): SYN waits for earlier writes on the FROM paths, invalidates the read cache if CORE is in TO, and lands 1. -/
  | xfence
  /-- SYN.WAITV (R370): SYN holds issue until the four condition records hold under any-of or all-of, or the timeout passes. -/
  | waitv
  /-- SYN.WAITC (R369): SYN holds issue until the named counters fall to their limits. -/
  | waitc
  /-- SYN.WAITT (R369): SYN holds issue until any or all tags of the mask are set. -/
  | waitt
  /-- SYN.FFR (R371): SYN finds and clears the lowest ready tag in the mask. -/
  | ffr
  /-- SYN.FLADD (R372): SYN adds a clamped increment to a local flag, or sends it to a remote crew. -/
  | fladd
  /-- SYN.FLSET (R372): SYN sets a local flag and returns its old value. -/
  | flset
  /-- SYN.FLRD (R372): SYN reads a local flag. -/
  | flrd
  /-- SYN.SIGRD (R375): SYN reads a 64-bit signal at its MEM into a sill slot. -/
  | sigrd
  /-- SYN.SIGWT (R375): SYN lands 1 in a sill slot when a signal comparison holds, or 0 at timeout. -/
  | sigwt
  /-- CMD.PUSH (R297): CMD pushes the word in W0-W3 with H0 and H1 to a selector's queue or elastic buffer. -/
  | push
  /-- CMD.PUSHT (R297): CMD pushes the word with T set and the tag from A[13:8]. -/
  | pusht
  /-- CMD.QFREE (R297): CMD returns the free queue and elastic-buffer counts of a selector. -/
  | qfree
  /-- UPD.OPEN (R333): UPD attaches the core's update stream to a view inside an open update region. -/
  | updOpen
  /-- UPD.EMIT (R333): UPD emits one update pair into the attached region. -/
  | emit
  /-- UPD.EMITV (R333): UPD emits up to 256 masked update pairs from ports X and Y. -/
  | emitv
  /-- UPD.FLUSH (R333): UPD lands 1 in a sill slot once every earlier pair of the strand is accepted. -/
  | flush
  /-- UPD.CLOSE (R333): UPD detaches the update stream. -/
  | close
  /-- STR.SOPEN (R245): STR loads a stream descriptor after checking its handle. -/
  | sopen
  /-- STR.SSTART (R245): STR starts generation of an opened stream. -/
  | sstart
  /-- STR.SPOP (R246): STR pops the next landed stream entry, or reports none, or raises the recorded fault. -/
  | spop
  /-- STR.SSTAT (R246): STR returns the stream status word. -/
  | sstat
  /-- STR.SCLOSE (R245): STR discards the stream queue and closes the stream. -/
  | sclose
  /-- STREAM_GENERATE (R244): The stream loader generates the next entry's address and issues its fetch while the queue has room. -/
  | streamGenerate
  /-- STREAM_ENTRY_LAND (R244): A stream fetch's data lands in the stream queue. -/
  | streamEntryLand
  /-- VXU.ROWGET (R194): VXU extracts row B of A into the first row of D. -/
  | rowget
  /-- VXU.ROWPUT (R194): VXU writes the first row of A into row B of a copy of C. -/
  | rowput
  /-- VXU.COLGET (R194): VXU extracts column B of A into linear positions of D. -/
  | colget
  /-- VXU.COLPUT (R194): VXU writes linear elements of A into column B of a copy of C. -/
  | colput
  /-- VXU.VTRN (R194): VXU transposes a square tile. -/
  | vtrn
  /-- VXU.VPERM (R195): VXU permutes elements of A by U16 indices in C. -/
  | vperm
  /-- VXU.VBCAST (R195): VXU broadcasts one element or one row of A. -/
  | vbcast
  /-- VXU.VRED (R196): VXU reduces the tile, rows or columns by a fixed tree. -/
  | vred
  /-- VXU.VSCAN (R196): VXU computes inclusive prefix combinations. -/
  | vscan
  /-- VXU.VCOMP (R197): VXU packs the elements selected by mask C and returns their count. -/
  | vcomp
  /-- VXU.VEXP (R197): VXU expands consecutive elements of A into the positions selected by C. -/
  | vexp
  /-- VXU.VEXTR (R197): VXU returns element B of A in scalar port S. -/
  | vextr
  /-- VXU.VINS (R197): VXU inserts A[0] at element B of C. -/
  | vins
  /-- VXU.VIOTA (R195): VXU writes B + q into each element q. -/
  | viota
  /-- VXU.VMPOP (R197): VXU counts the set bits of a mask within the tile. -/
  | vmpop
  /-- VXU.VSHP (R195): VXU reshapes a tile to the shape in B, padding with zeros. -/
  | vshp
  /-- VXU.VGTHL (R198): VXU starts a long gather of private-scratch elements by U16 indices. -/
  | vgthl
  /-- VXU.VSCTL (R198): VXU starts a long scatter of C's elements into private scratch. -/
  | vsctl
  /-- LONG_OP_COMPLETE (R183): A long VXU or VLS operation completes after L advances and writes its window or its stores. -/
  | longOpComplete
  /-- VLS.VLD (R240): VLS loads 1 KiB from scratch or a C buffer. -/
  | vld
  /-- VLS.VST (R240): VLS stores port C, whole or masked, to scratch or an A buffer. -/
  | vst
  /-- VLS.VLDS (R241): VLS starts a long strided element load. -/
  | vlds
  /-- VLS.VSTS (R241): VLS starts a long strided element store. -/
  | vsts
  /-- VLS.VLD2D (R242): VLS starts a long load of a tile from pitched rows. -/
  | vld2d
  /-- VLS.VST2D (R242): VLS starts a long store of a tile into pitched rows. -/
  | vst2d
  /-- VLS.VGLD (R243): VLS loads 1 KiB of a global buffer into a vector sill slot. -/
  | vgld
  /-- VLS.VGST (R243): VLS stores 1 KiB, whole or masked, to a global buffer. -/
  | vgst
  /-- VLS.VPREF (R243): VLS asks the owning MEMs to bring 1 KiB into their caches. -/
  | vpref
  /-- SFN.RSQE (R96): SFN writes a table estimate of the reciprocal square root. -/
  | rsqe
  /-- SFN.RCPE (R97): SFN writes a table estimate of the reciprocal. -/
  | rcpe
  /-- SFN.EXP2E (R98): SFN writes a table estimate of 2^x. -/
  | exp2e
  /-- SFN.LOG2E (R99): SFN writes a table estimate of log2 x. -/
  | log2e
  /-- SFN.SQRT (R199): SFN writes the correctly rounded square root. -/
  | sqrt
  /-- LAC.XWIN (R208): LAC sets an accumulator's BASE and clears its lanes and flags. -/
  | xwin
  /-- LAC.XCLR (R208): LAC clears the selected lanes and their flags. -/
  | xclr
  /-- LAC.XADD (R206): LAC adds each element exactly into its lane. -/
  | xadd
  /-- LAC.XADD2 (R206): LAC adds the exact product A × B into each lane. -/
  | xadd2
  /-- LAC.XADD3 (R206): LAC adds the exact term A·B − A·C into each lane. -/
  | xadd3
  /-- LAC.XDOT (R208): LAC adds each row's exact dot product into its lane. -/
  | xdot
  /-- LAC.XSGN (R210): LAC reports the sign of every lane. -/
  | xsgn
  /-- LAC.XRND (R209): LAC rounds each selected lane once into the form's type. -/
  | xrnd
  /-- LAC.XGET (R211): LAC returns four raw lanes and their flags. -/
  | xget
  /-- LAC.XFLG (R211): LAC reports a lane flag per lane and optionally clears it. -/
  | xflg
  /-- LAC.XMOV (R211): LAC copies one accumulator with its flags and BASE into another. -/
  | xmov
  /-- LAC.XMOV (R211): LAC loads four raw lanes and their flags from ports A and B. -/
  | xmovLoad
  /-- LAC.XNEG (R208): LAC negates the selected lanes. -/
  | xneg
  /-- LOAD_LANDING (R225): A global load, VGLD or SIGRD lands in its sill slot as FULL or POISONED, or is discarded, and LDC falls. -/
  | loadLanding
  /-- LATCH_FENCE_LANDING (R276): A latch, fence, FLUSH or SIGWT result lands its code in its sill slot once its operation finishes. -/
  | latchFenceLanding
  /-- MEM_TIMEOUT (R49): A freeze on a landing slot reaches 200,000 ticks and raises MEM_TIMEOUT. -/
  | memTimeout
  /-- SHARED_SCRATCH_SERVE (R220): The shared scratch serves waiting requests group by group in a clock, oldest first. -/
  | sharedScratchServe
  /-- WC_LINE_WRITEOUT (R229): A write-combining line idle for 1,024 clocks is written out. -/
  | wcLineWriteout
  /-- STORE_ACK (R229): The MEMs acknowledge every byte of a global store and STC falls. -/
  | storeAck
  /-- STORE_REPLAY_RETRY (R278): The replay queue retries a parked store every 1,000 ticks or when the extent's state changes. -/
  | storeReplayRetry
  /-- UNRESOLVED_STORE_DISCARD (R279): A store parked for 150,000 ticks or refused permanently is discarded as unresolved and the next release point's slot is poisoned. -/
  | unresolvedStoreDiscard
  /-- EXTENT_MIGRATION (R232): A tier-2 extent finishes migrating into HBM. -/
  | extentMigration
  /-- EXTENT_DEMOTION (R415): Firmware demotes least recently accessed unpinned extents when free HBM extents fall below 2 %. -/
  | extentDemotion
  /-- LATCH_GRANT (R276): A latch's MEM grants a waiting request once the latch rules allow it and lands the grant code. -/
  | latchGrant
  /-- ACQ_TIMEOUT (R277): An ACQ's timeout passes, the request is withdrawn and its slot lands 0. -/
  | acqTimeout
  /-- SIGWT_TIMEOUT (R375): A SIGWT's timeout passes first and its slot lands 0. -/
  | sigwtTimeout
  /-- WAIT_END (R368): A held wait's condition holds, its bundle completes and its D and F results are written. -/
  | waitEnd
  /-- WAIT_TIMEOUT (R368): A wait's timeout passes, the wait ends with F = 0, TSTAT.TOUT is set and WAIT_TIMEOUT may trap. -/
  | waitTimeout
  /-- REMOTE_FLADD_ARRIVAL (R373): A remote flag increment reaches its target crew and is applied, held or discarded, and acknowledged. -/
  | remoteFladdArrival
  /-- TAG_COMPLETION (R296): An engine entry completes, setting its tag, sending its event and lowering CPC or TLC. -/
  | tagCompletion
  /-- ELASTIC_BUFFER_MOVE (R294): An elastic buffer moves its oldest word into a freed queue entry. -/
  | elasticBufferMove
  /-- PAIR_ACCEPT (R334): A shutter accepts an update pair into its bin and UPC falls. -/
  | pairAccept
  /-- LEASE_GRANT (R312): The array arbiter grants the oldest MLEASE of the next core after LAST. -/
  | leaseGrant
  /-- NEXTT (R324): The walker closes the current tile slot and zero-fills the other. -/
  | nextt
  /-- WAITA (R324): The walker waits until its array has no entry executing or queued. -/
  | waita
  /-- DONE (R324): The walker completes its WRUN entry. -/
  | done
  /-- SIGWAIT_TIMEOUT (R339): A SIGWAIT's timeout passes and it raises ENGINE. -/
  | sigwaitTimeout
  /-- WINDOW_COPY_ENQUEUE (R287): A copy engine holding a packet for a full launch queue enqueues it once a packet completes. -/
  | windowCopyEnqueue
  /-- BARRIER_TIMEOUT (R291): A barrier's timeout passes before its conditions hold and it completes TIMEOUT. -/
  | barrierTimeout
  /-- NODE_DISPATCH (R350): The TGS places a READY node's crew on an eligible instance, reserving cores, scratch and flags, or faults NO_CLASS. -/
  | nodeDispatch
  /-- STRAND_START (R42): Once every core holds the overlay, every strand of the crew starts at the node's entry in its starting state. -/
  | strandStart
  /-- NODE_RETIRE (R43): A node instance whose strands have halted and whose counts and releases are done retires and returns its resources. -/
  | nodeRetire
  /-- AGEING (R349): A READY node that has waited one AGE interval in its level rises one level, up to the ceiling. -/
  | ageing
  /-- SLICE_END (R28): A time slice of a shared resource ends and its partition is cut. -/
  | sliceEnd
  /-- CUT (R66): The hub stops a partition's sources, issue, engines and paths until the consistent cut is complete. -/
  | cut
  /-- CONTEXT_SWITCH (R68): Once the cut is complete, the gang's contexts are exchanged with the pre-emption slots and the incoming gang is released. -/
  | contextSwitch
  /-- TRAP_ENTRY (R58): A strand trap drains, saves to the trap slot, writes the trap registers and starts the handler at TVEC. -/
  | trapEntry
  /-- FAULT (R61): A fault freezes the strand and crew, freezes supplying queues, writes the fault record and applies the policy. -/
  | fault
  /-- GOVERNOR_STEP (R21): Every 1,000 ticks the governor compares power with the cap and lowers or raises a class clock by 100 MHz. -/
  | governorStep
  /-- KILL (R65): The owner ends the partition, aborting instances, resetting queues and reclaiming buffers. -/
  | kill
  /-- SUSPEND (R66): The owner takes the whole partition off its resources by a cut. -/
  | suspend
  /-- CONTINUE (R409): The owner restores a suspended partition to its resources. -/
  | continueCmd
  /-- JOBNEW (R359): The owner creates a job RCB and receives its index. -/
  | jobnew
  /-- IMGCLOSE (R425): The management mailbox verifies the written slot and sets STAGED. -/
  | imgclose
  /-- ACTIVATE (R420): The management mailbox flips the marker to the staged slot and requests activation. -/
  | activate
  /-- ACTIVATION_RESET (R420): At a quiesce point the hub resets its control processor into the new image and runs held commands afterwards. -/
  | activationReset
  /-- LEAVE (R414): The package leaves its load-store domain and members drop it from their route tables. -/
  | leave
  /-- JOIN (R414): The package rejoins its domain under its package number. -/
  | join
  /-- BOOT (R419): At package reset the boot ROM boots the verified slot named by the highest valid marker, or enters recovery. -/
  | boot
  deriving DecidableEq, Repr

end Sys2Proof
end

