-- ==== Sys2Proof/Machine/CoreState.lean ====
section
/-! DEFINITION. The state of one control core: the context of its strand, and what belongs to the core itself
(R42, R140, R169, R201, R215). -/

namespace Sys2Proof.Machine

/-- A result window of depth 4: depth 0 is the newest result (R145). -/
structure Win (α : Type) where
  d0 : α
  d1 : α
  d2 : α
  d3 : α
  deriving DecidableEq, Repr

/-- The state of a landing-sill slot (R225). A slot poisoned by an unresolved store carries that store's byte offset and
handle, since reading it raises STORE_UNRESOLVED (R279). -/
inductive SlotSt where
  | empty
  | pending
  | full
  | poisoned
  | unresolved (off : Nat) (h : Handle)
  deriving DecidableEq, Repr

/-- A scalar sill slot: its value, its state, and the number of the operation whose landing it waits for. -/
structure SillS where
  val : Word
  st : SlotSt
  seq : Nat
  deriving DecidableEq, Repr

/-- A vector sill slot. -/
structure SillV where
  val : VReg
  st : SlotSt
  seq : Nat
  deriving DecidableEq, Repr

/-- The value of a result port: scalar, vector or capability (R117). -/
inductive ResVal where
  | s (w : Word)
  | v (x : VReg)
  | k (h : Handle)
  deriving DecidableEq, Repr

/-- A fixed-latency operation in flight (R145, R146): the unfrozen clock in which it writes, the order of issue, the ports it
writes, and what R179 needs of it: the conditions raised, the lowest element that raised an enabled one, the trap enables as
they stood at its trigger, and its bundle. macC says that it also writes its unit's port C (R187). -/
structure InFlight where
  fu : FU
  due : Nat
  seq : Nat
  writes : List (Nat × ResVal)
  raised : BitVec 5
  enabled : BitVec 5
  lowest : Nat
  bidx : Word
  slot : Nat
  macC : Bool
  deriving DecidableEq, Repr

/-- A long operation in a sequencer of VXU or VLS (R183, R184, R234): what it does when it completes. -/
structure LongOp where
  dsel : BitVec 7
  need : Nat
  adv : Nat
  parked : Bool
  /-- parked by trap entry: only TRET lets it advance again (R183) -/
  trapped : Bool
  /-- a load from shared scratch not served by its completing clock: it writes in the clock after its last granule (R234) -/
  overdue : Bool
  tile : VReg
  isLoad : Bool
  /-- private-scratch and A-buffer cells a store writes on completion, by absolute memory address -/
  cells : List Host.Cell
  /-- shared-scratch cells a store requests on completion, by offset in the chiplet's shared scratch -/
  shared : List Host.Cell
  /-- the shared-scratch request group a load waits for -/
  group : Option Nat
  /-- the elements that a shared load reads, in the order of its addresses, and their width in bits -/
  elems : List Nat
  width : Nat
  seq : Nat
  bidx : Word
  deriving DecidableEq, Repr

/-- The state of a stream (R244). -/
inductive StreamSt where
  | closed | running | done | stopped
  deriving DecidableEq, Repr

/-- An entry of the stream queue: still in flight, landed, or landed poisoned. -/
inductive StreamEnt where
  | flying
  | landed (v : Word)
  | poisoned
  deriving DecidableEq, Repr

/-- A core's stream (R244-R246). The queue holds entries Q up to G, oldest first. -/
structure Stream where
  st : StreamSt
  hasDesc : Bool
  h : Handle
  base : Nat
  stride : BitVec 32
  pitch : BitVec 32
  count : Nat
  inner : Nat
  esize : BitVec 2
  sx : Bool
  g : Nat
  q : Nat
  queue : List StreamEnt
  /-- the fault recorded at a position: its code and the position (R74) -/
  fault : Option (Nat × Nat)
  epoch : Nat
  deriving DecidableEq, Repr

/-- Where a global load lands. -/
inductive LoadDst where
  | scalar (slot : Nat) (sx : Bool)
  | vector (slot : Nat)
  | stream (pos : Nat) (epoch : Nat)
  /-- PREF: nothing lands -/
  | none
  deriving DecidableEq, Repr

/-- A global load, VGLD, SIGRD or stream fetch in flight (R225-R228). Its check has passed; addr is its absolute address. -/
structure GLoad where
  seq : Nat
  dst : LoadDst
  h : Handle
  off : Nat
  addr : Nat
  size : Nat
  deadline : Nat
  /-- the unfrozen clock before which it does not land -/
  notBefore : Nat
  /-- granules not read yet at their MEM; of these, those whose request has arrived there, each with the clock it arrived; and the bytes
  read so far -/
  todo : List Nat
  arrived : List (Nat × Nat)
  got : List Host.Cell
  poison : Bool
  /-- bytes of the core's own earlier stores that had not been made when the load issued, each with a store of the line that holds it
  (R228) -/
  fwd : List (Nat × Host.Cell)
  /-- LDC counts it -/
  counted : Bool
  /-- it reads and fills the read cache -/
  cached : Bool
  deriving DecidableEq, Repr

/-- What a latch, fence, FLUSH or SIGWT slot waits for (R276, R277, R333, R375). -/
inductive SlotWait where
  /-- ACQ or TACQ: latch, shared, TACQ, the tick of its timeout, sent to the MEM, and the code of its grant -/
  | acq (latch : Nat) (shr tryIt : Bool) (deadline : Nat) (sent : Bool) (granted : Nat)
  /-- REL: latch, whether it flushes the strand's update stream, and with ENG the order stamps of the entries it waits for -/
  | rel (latch : Nat) (flush : Bool) (entries : List Nat)
  | fence
  | xfence (from_ to_ : BitVec 8) (entries : List Nat)
  | flush
  /-- SIGWT: address, comparison, comparand, and the tick of its timeout -/
  | sigwt (addr : Nat) (cmp : Nat) (val : Word) (deadline : Nat)
  /-- an answer already known -/
  | code (v : Word)
  /-- a SIGWT whose signal's granule was read poisoned (R231) -/
  | poisoned
  deriving DecidableEq, Repr

/-- A latch, fence, FLUSH or SIGWT operation in flight: the slot it lands in and the clock before which it does not. -/
structure SlotOp where
  seq : Nat
  slot : Nat
  notBefore : Nat
  wait : SlotWait
  /-- the timeout of an ACQ or SIGWT in ticks, which a restore starts again in full (R283) -/
  tout : Nat
  /-- an unresolved store that poisons the slot when it lands (R279) -/
  bad : Option (Nat × Handle)
  /-- stores of the strand that were parked when the operation issued (R279) -/
  parked : List Nat
  deriving DecidableEq, Repr

/-- A pair of an update stream: its region, absolute element address and value (R333). -/
structure UPair where
  region : Nat
  off : Nat
  addr : Nat
  val : Word
  h : Handle
  /-- the operation that emitted it -/
  seq : Nat
  deriving DecidableEq, Repr

/-- A core's update stream (R333): its attachment, and its entries, oldest first, of one or more pairs each. -/
structure UpdStream where
  att : Option (Handle × Nat)
  entries : List (List UPair)
  deriving DecidableEq, Repr

/-- What trap entry saves (R58 step 5). -/
structure TrapSlot where
  sport : NMap Word
  vport : NMap VReg
  kport : NMap Handle
  swin : NMap (Win Word)
  vwin : NMap (Win VReg)
  kwin : NMap (Win Handle)
  prf : BitVec 16
  lc : BitVec 32
  esc : BitVec 3
  rrb : BitVec 7
  lhead : BitVec 13
  sillS : NMap SillS
  sillV : NMap SillV
  nopw : Nat
  poisoned : Bool
  deriving DecidableEq, Repr

/-- An ARITH trap that waits for the next bundle boundary (R58, R179, R200). -/
structure Arith where
  fu : Nat
  bidx : Word
  slot : Nat
  raised : BitVec 5
  lowest : Nat
  seq : Nat
  deriving DecidableEq, Repr

/-- The context of a strand: everything that a fault or a switch moves to the pre-emption slot (R61, R68), in one record. -/
structure Ctx where
  crew : Nat
  part : Nat
  cidx : Nat
  csize : Nat
  srf : NMap Word
  prf : BitVec 16
  crf : NMap Handle
  vrf : NMap VReg
  mrf : NMap Mask
  dirty : BitVec 128
  /-- the vector registers that the strand's context image holds (R68, R72) -/
  vmap : BitVec 128
  sport : NMap Word
  vport : NMap VReg
  kport : NMap Handle
  swin : NMap (Win Word)
  vwin : NMap (Win VReg)
  kwin : NMap (Win Handle)
  sillS : NMap SillS
  sillV : NMap SillV
  pc : Word
  vshape : BitVec 13
  vconf : BitVec 22
  vctl : BitVec 15
  vflags : BitVec 5
  lc : BitVec 32
  esc : BitVec 3
  rrb : BitVec 7
  lhead : BitVec 13
  tvec : BitVec 13
  tcFu : BitVec 5
  tcCode : BitVec 8
  tinfo0 : Word
  tinfo1 : Word
  tinfo2 : Word
  inTrap : Bool
  tout : Bool
  tret : BitVec 13
  htbTable : BitVec 16
  htbNent : BitVec 11
  htab : NMap Handle
  argEnt : BitVec 3
  argOff : BitVec 48
  /-- the argument base that special source 0x004 returns (R35) -/
  argBase : Word
  crewId : BitVec 16
  nodeId : BitVec 16
  gridX : BitVec 16
  gridY : BitVec 16
  ldc : BitVec 16
  stc : BitVec 16
  cpc : BitVec 16
  tlc : BitVec 16
  upc : BitVec 16
  tags : BitVec 64
  lanes : NMap Lane
  lflags : NMap (BitVec 3)
  xbase : NMap (BitVec 13)
  /-- accumulators changed since the last save or restore (R213) -/
  lacDirty : BitVec 4
  vxuLong : Option LongOp
  vlsLong : Option LongOp
  stream : Stream
  upd : UpdStream
  trapSlot : Option TrapSlot
  loads : List GLoad
  slotOps : List SlotOp
  /-- remaining clocks of a NOPW pause (R165) -/
  nopw : Nat
  /-- latches held, with 1 for a shared hold (R276) -/
  latches : List (Nat × Bool)
  /-- an unresolved store waiting for a release point of a switched-out or running strand (R279) -/
  unresolved : Option (Nat × Handle)
  /-- the unresolved store struck while the context was switched out: the next release point takes it (R366) -/
  carry : Bool
  /-- unresolved stores that a latch or fence slot has taken over and whose fault nothing has raised yet, by the slot's operation (R279) -/
  noted : List (Nat × Nat × Handle)
  /-- an ARITH trap that waits for the next bundle boundary (R179) -/
  arith : Option Arith
  /-- the sequence number of the last operation issued -/
  seq : Nat
  deriving DecidableEq, Repr

/-- A fault about to be recorded (R63): the fields of w0-w4 and w7 that the raiser gives. -/
structure FaultInfo where
  code : Nat
  src : Nat
  more : Bool
  slot : Nat
  bidx : Nat
  detail : Word
  handle : Handle
  estat : Nat
  esite : Nat
  eng : Nat
  cidxq : Nat
  pidxv : Nat
  deriving DecidableEq, Repr

/-- A strand trap about to be entered (R55-R58). -/
structure TrapInfo where
  cause : Nat
  fu : Nat
  info0 : Word
  info1 : Word
  info2 : Word
  ret : BitVec 13
  deriving DecidableEq, Repr

/-- Why issue has stopped (R53). -/
inductive Stop where
  | trap (t : TrapInfo)
  | tret
  | fault (f : FaultInfo)
  | freeze
  | cut
  deriving DecidableEq, Repr

/-- What a core is doing. -/
inductive Mode where
  /-- no strand -/
  | idle
  /-- issues the bundle at pc -/
  | run
  /-- counts a NOPW pause (R165) -/
  | pause
  /-- holds an ALLOC or a wait in issue (R259, R368) -/
  | hold
  /-- issue has stopped and the core drains (R58 steps 3 and 4) -/
  | drain (w : Stop)
  /-- saves to, or restores from, the trap slot (R58 step 5, R59) -/
  | save (left : Nat) (w : Stop)
  /-- stopped, with its state on the core or in the pre-emption slot -/
  | stopped
  /-- the strand has executed HALT -/
  | halted
  deriving DecidableEq, Repr

/-- The value a move carries (R117). -/
inductive MVal where
  | s (w : Word)
  | v (x : VReg)
  | k (h : Handle)
  deriving DecidableEq, Repr

/-- A resolved write of a bundle: where it goes and what it writes. -/
structure BWrite where
  dst : Dst
  phys : Nat
  val : MVal
  deriving DecidableEq, Repr

/-- A trigger of a bundle: its slot (R63's numbering), unit and opcode. -/
structure BTrig where
  slot : Nat
  fu : FU
  opc : BitVec 7
  deriving DecidableEq, Repr

/-- The condition a wait holds on (R369, R370). -/
inductive WaitCond where
  | counters (limits : Word)
  | tags (mask : Word) (all : Bool)
  | records (r : List (Word × Word)) (all : Bool) (h : Handle)
  deriving DecidableEq, Repr

/-- A wait held in issue (R368). -/
structure Wait where
  cond : WaitCond
  condWord : Word
  timeout : Nat
  startTick : Nat
  slot : Nat
  deriving DecidableEq, Repr

/-- An ALLOC held in issue (R259): the clocks left of its hold, its move slot, its ports A and B, and the allocator's decision
once made: H, F and D, or none for a faulting refusal. -/
structure AllocHold where
  left : Nat
  slot : Nat
  a : Word
  b : Word
  res : Option (Option (Handle × Word × Word))
  deriving DecidableEq, Repr

/-- A bundle held in issue (R259, R368): its writes and its other triggers, which take effect when the hold ends. -/
structure Hold where
  bundle : Bundle
  bidx : Word
  /-- the clock in which the bundle issued -/
  born : Nat
  writes : List BWrite
  trigs : List BTrig
  alloc : Option AllocHold
  wait : Option Wait
  /-- the buffers that its checked global accesses reach, which a reclaim waits for (R256, R261) -/
  bids : List Nat
  deriving DecidableEq, Repr

/-- The operand ports of one unit as a triggering bundle left them (R112 step 4), with what an operation reads at that moment
(R173): VSHAPE, VCTL and the mask register its form names. -/
structure Operands where
  a : Word
  b : Word
  c : Word
  p : Word
  f : Word
  x : Word
  h : Handle
  h1 : Handle
  va : VReg
  vb : VReg
  vc : VReg
  vx : VReg
  vy : VReg
  word : Bits256
  mask : Mask
  vshape : BitVec 13
  vctl : BitVec 15
  deriving DecidableEq, Repr

/-- An operation whose effect comes in a later clock, or late in this one (R154, R207, R260, R371, R372). -/
structure Deferred where
  due : Nat
  late : Bool
  slot : Nat
  fu : FU
  opc : BitVec 7
  bidx : Word
  ops : Operands
  born : Nat
  deriving DecidableEq, Repr

/-- An overlay resident in instruction memory (R44, R147). -/
structure Overlay where
  part : Nat
  slot : Nat
  prog : Nat
  image : Nat
  sgen : Nat
  size : Nat
  code : NMap Bits256
  consts : NMap Word
  vshape : BitVec 13
  vconf : BitVec 22
  trap : BitVec 13
  entry : BitVec 13
  /-- dispatch count at its last dispatch, for least-recently-dispatched eviction -/
  last : Nat
  bad : List Nat
  deriving DecidableEq, Repr

/-- A line of the write-combining buffer (R229): its buffer and line, its written bytes by absolute address, the stores whose
bytes it holds, and when it was allocated and last merged into. -/
structure WcLine where
  h : Handle
  off : Nat
  line : Nat
  cells : List Host.Cell
  ids : List Nat
  idle : Nat
  first : Nat
  deriving DecidableEq, Repr

/-- A line written out and not yet acknowledged, or parked in the store replay queue (R278). -/
structure WcOut where
  crew : Nat
  h : Handle
  off : Nat
  cells : List Host.Cell
  ids : List Nat
  /-- the tick at which it was first refused, and the tick of the last retry -/
  parked : Option (Nat × Nat)
  permanent : Bool
  deriving DecidableEq, Repr

/-- A line of the global read cache (R228). -/
structure CacheLine where
  line : Nat
  bytes : BitVec 512
  deriving DecidableEq, Repr

/-- A control core: the context of the strand it runs, its pre-emption slot (R61, R68), and what belongs to the core itself. -/
structure Core where
  ctx : Ctx
  mode : Mode
  preempt : Option Ctx
  /-- the header of the context image in the pre-emption slot (R72) -/
  preHead : Bits512
  preemptBad : Bool
  overlays : List Overlay
  running : Option Nat
  age : Nat
  inflight : List InFlight
  deferred : List Deferred
  hold : Option Hold
  /-- a stop request waiting for the next bundle boundary -/
  stopReq : Option Stop
  /-- the tick in which a freeze on a landing slot began, and the slot (R49, R226) -/
  freeze : Option (Nat × Nat)
  /-- the core is frozen in this clock -/
  frozen : Bool
  /-- the core issued a bundle, counted a pause or held in this clock (R183) -/
  busy : Bool
  /-- the units whose port C the bundle of this clock wrote (R187) -/
  movedC : List FU
  /-- a fault found at the first bundle that would issue (R224) -/
  badRestore : Bool
  /-- the clock in which the fault struck that the core drains for (R61) -/
  faultAt : Nat
  wcb : List WcLine
  outs : List WcOut
  replay : List WcOut
  rcache : List CacheLine
  mbImg : Word
  mbOff : BitVec 48
  mbState : BitVec 4
  /-- the core's strand was started through the boot mailbox (R48) -/
  mbStrand : Bool
  /-- bundles copied by the overlay loader that are still to come (R44) -/
  loadLeft : Nat
  diagPriv : BitVec 32
  diagPar : BitVec 32
  parityBad : Bool
  clock : Nat
  deriving DecidableEq, Repr

/-- A window of zeros (R42). -/
def Win.zero {α : Type} (z : α) : Win α := ⟨z, z, z, z⟩

/-- A closed stream with no descriptor (R244). -/
def Stream.none : Stream :=
  { st := .closed, hasDesc := false, h := 0, base := 0, stride := 0, pitch := 0, count := 0, inner := 0, esize := 0,
    sx := false, g := 0, q := 0, queue := [], fault := Option.none, epoch := 0 }

/-- A context of zeros: the values of R42 that do not depend on the node. DESIGN CHOICE (log 2). DEDUCED (log 5). -/
def Ctx.zero : Ctx :=
  { crew := 0, part := 0, cidx := 0, csize := 0, srf := [], prf := 1, crf := [], vrf := [], mrf := [], dirty := 0, vmap := 0,
    sport := [], vport := [], kport := [], swin := [], vwin := [], kwin := [], sillS := [], sillV := [], pc := 0,
    vshape := 0, vconf := 0, vctl := 0, vflags := 0, lc := 0, esc := 0, rrb := 0, lhead := 0, tvec := 0, tcFu := 0,
    tcCode := 0, tinfo0 := 0, tinfo1 := 0, tinfo2 := 0, inTrap := false, tout := false, tret := 0, htbTable := 0,
    htbNent := 0, htab := [], argEnt := 0, argOff := 0, argBase := 0, crewId := 0, nodeId := 0, gridX := 0, gridY := 0,
    ldc := 0, stc := 0, cpc := 0, tlc := 0, upc := 0, tags := 0, lanes := [], lflags := [], xbase := [], lacDirty := 15,
    vxuLong := none, vlsLong := none, stream := Stream.none, upd := ⟨none, []⟩, trapSlot := none, loads := [],
    slotOps := [], nopw := 0, latches := [], unresolved := none, carry := false, noted := [], arith := none, seq := 0 }

/-- A core after package reset: no strand (DESIGN CHOICE, log 2). -/
def Core.zero : Core :=
  { ctx := Ctx.zero, mode := .idle, preempt := none, preHead := 0, preemptBad := false, overlays := [], running := none, age := 0,
    inflight := [], deferred := [], hold := none, stopReq := none, freeze := none, frozen := false,
    busy := false, movedC := [], badRestore := false, faultAt := 0, wcb := [], outs := [], replay := [], rcache := [], mbImg := 0, mbOff := 0,
    mbState := 0, mbStrand := false, loadLeft := 0, diagPriv := 0, diagPar := 0, parityBad := false, clock := 0 }

/-- Operands of zeros. -/
def Operands.zero : Operands :=
  { a := 0, b := 0, c := 0, p := 0, f := 0, x := 0, h := 0, h1 := 0, va := 0, vb := 0, vc := 0, vx := 0, vy := 0,
    word := 0, mask := 0, vshape := 0, vctl := 0 }

end Sys2Proof.Machine
end

