-- ==== Sys2Proof/Machine/HubState.lean ====
section
/-! DEFINITION. The state outside the control cores: buffers, latches, engines, the hub's tables, the links and management. -/

namespace Sys2Proof.Machine

/-- The classes of chiplet (R9, R352). -/
inductive Cls where
  | dmx | spx | vec | srt | mem | hub | link
  deriving DecidableEq, Repr

/-- The populations of R1. -/
inductive Population where
  | f | d | g
  deriving DecidableEq, Repr

/-- A buffer-table entry (R251), with the count of accesses in flight that a reclaim waits for. -/
structure Buf where
  state : Nat
  gen : BitVec 8
  size : Nat
  latch : BitVec 16
  own : BitVec 16
  refs : BitVec 32
  uop : BitVec 5
  key : BitVec 11
  pmem : BitVec 3
  plc : Bool
  fmt : BitVec 12
  orcb : Nat
  hold1 : Nat
  hold2 : Nat
  hold3 : Nat
  xmap : Nat
  /-- the RCBs that have counted its extents (R25) -/
  charged : List Nat
  deriving DecidableEq, Repr

/-- A pinned copy of an entry in a chiplet's handle cache (R255, R256): the crews that pin it, and the copy. -/
structure Pin where
  crews : List Nat
  copy : Buf
  deriving DecidableEq, Repr

/-- Where an extent lives (R232, R415, R416, R423). -/
inductive ExtSt where
  | hbm | tier2 | migrating | recal | lost
  deriving DecidableEq, Repr

/-- An extent of a buffer: its state and the slot of its last access. -/
structure Ext where
  st : ExtSt
  acc : Nat
  pinned : Bool
  deriving DecidableEq, Repr

/-- A request waiting at a latch: strand, sill operation and kind. -/
structure LatchReq where
  core : Nat
  crew : Nat
  seq : Nat
  shr : Bool
  deriving DecidableEq, Repr

/-- A latch entry (R362): holders are (core, crew) pairs. -/
structure Latch where
  mode : BitVec 2
  abh : Bool
  holders : List (Nat × Nat)
  wq : List LatchReq
  deriving DecidableEq, Repr

/-- An open update region (R332, R336). -/
structure Region where
  bid : Nat
  lo : Nat
  hi : Nat
  uop : BitVec 5
  nosp : Bool
  spills : BitVec 32
  rq : BitVec 20
  part : Nat
  orcb : Nat
  deriving DecidableEq, Repr

/-- A bin of a shutter (R334): sum in units of 2^-149 for the floating adds, val otherwise. -/
structure Bin where
  region : Nat
  uop : BitVec 5
  sum : Int
  pinf : Bool
  ninf : Bool
  nan : Bool
  z : Bool
  val : Word
  count : Nat
  stamp : Nat
  /-- the RCBs that have counted it (R25) -/
  charged : List Nat
  deriving DecidableEq, Repr

/-- A word of an engine command queue or elastic buffer (R294): the word, its handles, and the strand that pushed it. pkt names
the launch packet of a COPY packet (R292); chain names the engine whose CHAIN fetched the word (R305) and its index. -/
structure QEnt where
  word : Bits256
  h0 : Handle
  h1 : Handle
  core : Nat
  crew : Nat
  part : Nat
  stamp : Nat
  sill : Nat
  pkt : Option (Nat × Nat × Nat)
  /-- the node of the strand that pushed it (R46) -/
  node : Nat
  chain : Option (Nat × Nat)
  deriving DecidableEq, Repr

/-- An entry as its engine runs it (R46): its command index among the queue's pops, its progress index, whether its checks at
pop have passed, and its start tick. -/
structure Act where
  ent : QEnt
  idx : Nat
  prog : Nat
  checked : Bool
  start : Nat
  /-- what the engine carries from one unit to the next: a sort engine's local buffer (R330) -/
  aux : List Nat
  deriving DecidableEq, Repr

/-- A walker with its intersect unit (R321, R323, R326). -/
structure Walker where
  store : NMap (BitVec 32)
  regs : NMap (BitVec 32)
  pc : Nat
  toff0 : Nat
  toff1 : Nat
  cur : Bool
  closed : BitVec 32
  count : Nat
  status : Nat
  trlast : Nat
  tclast : Nat
  esz : Nat
  tpitch : Nat
  maxi : Nat
  conf : Bool
  el : BitVec 2
  xvb : Nat
  yvb : Nat
  px : BitVec 32
  py : BitVec 32
  acc : BitVec 32
  deriving DecidableEq, Repr

/-- An entry in execution. For a CHAIN: the fetched word it runs or pushes now, the indices of pushed words not yet complete, the
posts made, and whether its last word has been fetched (R305). window: it holds a packet for a full launch queue (R287). done: it
has run and its completion follows. -/
structure ExecEnt where
  main : Act
  sub : Option Act
  opens : List Nat
  posted : Nat
  ended : Bool
  window : Bool
  done : Bool
  /-- update pairs of an MSTORE not yet accepted (R319) -/
  pairs : List UPair
  /-- the walker's state while a stopped entry is off it (R321) -/
  image : Option Walker
  deriving DecidableEq, Repr

/-- An engine and its command queue (R294). -/
structure Engine where
  queue : List QEnt
  cur : Option ExecEnt
  /-- the partitions whose entries a fault has frozen (R61, R426) -/
  frozenParts : List Nat
  elastic : NMap (List QEnt)
  /-- entries popped since reset, and by crew the count at its dispatch (R63 CIDXQ) -/
  pops : Nat
  base : NMap Nat
  /-- entries stopped by a fault or a cut (R61, R66) -/
  saved : List ExecEnt
  /-- queue images of partitions that are off the engine (R66) -/
  off : List QEnt
  deriving DecidableEq, Repr

/-- The state of an array for one partition's share (R311). -/
structure ArrayShare where
  lhold : Option Nat
  run : Nat
  last : Nat
  mstat : BitVec 5
  deriving DecidableEq, Repr

/-- A request to the shared scratch of a chiplet (R220): one 64-byte granule of one access. -/
structure SsmReq where
  group : Nat
  rank : Nat
  born : Nat
  seq : Nat
  gran : Nat
  /-- the cells a write makes; empty for a read -/
  cells : List Host.Cell
  wr : Bool
  core : Nat
  crew : Nat
  /-- a granule of a long store, which is not written before an earlier one of the same store (R234) -/
  inOrder : Bool
  deriving DecidableEq, Repr

/-- A shared-scratch access whose granules are being served (R221): what a load writes when all are. -/
structure SsmGroup where
  site : Nat
  core : Nat
  crew : Nat
  fu : FU
  opc : BitVec 7
  /-- addresses of the bytes the load reads, in order -/
  addrs : List Nat
  got : List Host.Cell
  left : Nat
  issued : Nat
  base : Nat
  waited : Nat
  seq : Nat
  bidx : Word
  long : Bool
  deriving DecidableEq, Repr

/-- A remote flag increment in flight (R373). -/
structure RemoteInc where
  fromSite : Nat
  fromPart : Nat
  fromCore : Nat
  crew : Nat
  idx : Nat
  inc : Int
  deriving DecidableEq, Repr

/-- A region control block (R358). -/
structure Rcb where
  level : BitVec 2
  part : BitVec 6
  inh : BitVec 5
  prio : BitVec 3
  ceil : BitVec 3
  policy : BitVec 2
  state : BitVec 2
  parent : BitVec 15
  budget : BitVec 32
  used : BitVec 32
  binq : BitVec 32
  binused : BitVec 32
  age : BitVec 14
  ovf : BitVec 16
  deriving DecidableEq, Repr

/-- A fault ring of 64 records (R62): its records, oldest first, and the ring index of the oldest. -/
structure Ring where
  recs : List Bits512
  head : BitVec 6
  deriving DecidableEq, Repr

/-- The states of a node (R39, R341). -/
inductive NodeSt where
  | waiting | ready | dispatched | running | suspended | draining | faulted | retired | aborted
  deriving DecidableEq, Repr

/-- A preference of a node (R341 PREF0-PREF2): class, image of the slot, program of that image. -/
structure Pref where
  cls : BitVec 2
  image : BitVec 2
  prog : BitVec 11
  deriving DecidableEq, Repr

/-- A TGS node entry (R341), its preferences as w1 holds them, with its argument snapshot, its instance and its grid scoreboard (R345). -/
structure Node where
  pend : BitVec 16
  st : NodeSt
  pinh : Bool
  prio : BitVec 3
  width : BitVec 4
  scr : BitVec 9
  flags : BitVec 10
  grid : Bool
  rgen : BitVec 16
  prefWord : Word
  succs : List Nat
  argrec : BitVec 48
  stencil : BitVec 24
  gxl : BitVec 10
  gyl : BitVec 10
  /-- index of its successor list in the slot's graph description -/
  slist : BitVec 20
  args : Bits512
  rcb : Nat
  /-- grid instances released, and retired, by y * 1024 + x -/
  released : List Nat
  done : List Nat
  fault : Option FaultInfo
  /-- the core of that fault -/
  faultCore : Nat
  /-- the state from which the node was frozen or suspended -/
  before : NodeSt
  deriving DecidableEq, Repr

/-- A READY node or released grid instance in its ready list (R347-R349). -/
structure Ready where
  node : Nat
  gx : Nat
  gy : Nat
  part : Nat
  cls : Nat
  level : Nat
  arrive : Nat
  aged : Nat
  stamp : Nat
  /-- not aged since it joined its list: instances of one grid node that join in one tick stand by row and column (R345) -/
  fresh : Bool
  deriving DecidableEq, Repr

/-- The stages of a crew. -/
inductive CrewSt where
  | loading | running | draining | releasing | faulted | out
  deriving DecidableEq, Repr

/-- A crew (R41, R310): its node instance, its cores, its segments and its selector bindings. -/
structure Crew where
  node : Nat
  gx : Nat
  gy : Nat
  part : Nat
  rcb : Nat
  site : Nat
  cores : List Nat
  st : CrewSt
  scr : Nat
  scrLen : Nat
  flag : Nat
  flagLen : Nat
  /-- engine bound to each selector 0-33, 0 for none, else engine id + 1 -/
  bind : List Nat
  ready : Ready
  image : Nat
  prog : Nat
  /-- remote increments held while the crew is switched out (R373) -/
  held : List RemoteInc
  /-- saved flag segment of a switched-out crew (R67) -/
  savedFlags : List (BitVec 16)
  /-- the instance's handle table as it stood at the crew's dispatch (R155) -/
  htab : NMap Handle
  before : CrewSt
  deriving DecidableEq, Repr

/-- A graph instance (R31-R35). -/
structure Inst where
  part : Nat
  slot : Nat
  queue : Nat
  seq : Nat
  nodes : List Nat
  htab : NMap Handle
  nent : Nat
  handoff : List Nat
  argEnt : BitVec 3
  argOff : BitVec 48
  /-- the chiplets that its crews have run on, whose paths its completion waits for (R272) -/
  sites : List Nat
  deriving DecidableEq, Repr

/-- The four states of a launch queue (R285). -/
inductive LqSt where
  | running | frozen | suspended | aborted
  deriving DecidableEq, Repr

/-- An accepted packet (R285-R292): its sequence number, its bits, its start tick once started, and for a COPY packet the
engine running it. -/
structure LPkt where
  seq : Nat
  bits : Bits512
  started : Option Nat
  inst : Option Nat
  /-- the handles copied from the export table at its start (R288) -/
  hs : List Handle
  /-- the completion of an INVOKE that waits for the paths of its instance's chiplets to read empty: its code and the chiplets (R272) -/
  ending : Option (Nat × List Nat)
  deriving DecidableEq, Repr

/-- A launch queue (R285, R286, R363). -/
structure LaunchQ where
  v : Bool
  st : LqSt
  before : LqSt
  job : BitVec 15
  csx : BitVec 16
  csoff : BitVec 48
  seq : BitVec 48
  acode : BitVec 32
  drops : BitVec 16
  pkts : List LPkt
  stat : NMap (BitVec 64)
  deriving DecidableEq, Repr

/-- An overlay of a program image as the loader sees it (06, R44, R139). -/
structure OverlayImg where
  size : Nat
  code : NMap Bits256
  consts : NMap Word
  vshape : BitVec 13
  vconf : BitVec 22
  trap : BitVec 13
  entry : BitVec 13
  deriving DecidableEq, Repr

/-- A node of a graph description (R36, R341). -/
structure NodeDesc where
  pend : BitVec 16
  pinh : Bool
  prio : BitVec 3
  width : BitVec 4
  scr : BitVec 9
  flags : BitVec 10
  grid : Bool
  prefWord : Word
  succs : List Nat
  argrec : BitVec 48
  stencil : BitVec 24
  gxl : BitVec 10
  gyl : BitVec 10
  slist : BitVec 20
  deriving DecidableEq, Repr

/-- A handle entry of an image: a handoff entry, or a pinned buffer with its size, attributes and content (R33, R262). -/
structure HandleDesc where
  handoff : Bool
  size : Nat
  attr : Word
  data : List Host.Cell
  deriving DecidableEq, Repr

/-- A program image as the resident-slot loader reads it (R45, R139, R356). -/
structure Image where
  cls : BitVec 2
  ltv : BitVec 8
  overlays : List OverlayImg
  nodes : List NodeDesc
  handles : List HandleDesc
  /-- the names of its overlays, and the prog names of its nodes, each with the class that names it (R356) -/
  defs : List String
  uses : List (BitVec 2 × String)
  deriving DecidableEq, Repr

/-- A resident slot (R356). -/
structure Slot where
  state : BitVec 3
  reason : BitVec 5
  nimg : BitVec 8
  sgen : BitVec 8
  nnode : BitVec 16
  nhand : BitVec 16
  img0 : Handle
  img1 : Handle
  img2 : Handle
  img3 : Handle
  rcnt : BitVec 16
  rtpl0 : Word
  rtpl1 : Word
  images : List Image
  /-- handles of the slot's own pinned buffers, 0 for a handoff entry -/
  bufs : List Handle
  deriving DecidableEq, Repr

/-- A partition: masks, port, windows and rings (R27, R288, R407-R411). -/
structure Part where
  masks : Masks
  key : BitVec 11
  port : Bool
  suspended : Bool
  /-- a cut of the whole partition is in progress -/
  cutting : Bool
  queues : NMap LaunchQ
  exports : NMap Handle
  slots : NMap Slot
  cw : NMap Word
  busy : Bool
  op : BitVec 8
  status : BitVec 16
  fsel : BitVec 15
  axi : BitVec 16
  abase : BitVec 18
  aperr : BitVec 32
  evovf : BitVec 32
  events : List (Word × Word)
  evcount : Nat
  msix : BitVec 8
  /-- what the last read by the partition's host returned, and how it completed: 0 as a success, 1 as an Unsupported Request, 2 as a poisoned
  completion (R231, R411) -/
  hostRead : List Byte
  hostStatus : BitVec 2
  deriving DecidableEq, Repr

/-- A discovery-table entry (R352). -/
structure Disc where
  ltv : BitVec 8
  lanes : BitVec 8
  cores : BitVec 16
  inst : BitVec 8
  st : SiteSt
  site : BitVec 8
  cls : BitVec 3
  units : BitVec 64
  fwver : BitVec 32
  schg : BitVec 32
  tchg : BitVec 64
  deriving DecidableEq, Repr

/-- A key-table slot with its material (R360). -/
structure Key where
  valid : Bool
  part : BitVec 6
  nbuf : BitVec 32
  material : Bits512
  /-- the owner's request for material is open -/
  asked : Bool
  deriving DecidableEq, Repr

/-- A format range register (R361). -/
structure Range where
  v : Bool
  bid : Nat
  stf : BitVec 3
  bw : BitVec 3
  srv : Bool
  dit : Bool
  dph : BitVec 4
  base : BitVec 24
  next : BitVec 24
  deriving DecidableEq, Repr

/-- The time slice of a shared core or engine (R28): the partition served, when its slice ends, and whether it is being cut. -/
structure Slice where
  part : Nat
  ends : Nat
  cutting : Bool
  deriving DecidableEq, Repr

/-- Where the contexts of a gang that is out stand (R68): in its partition's context area in memory, incoming in the pre-emption slots of
its cores, with the cores whose slot an error has struck meanwhile (R224), or outgoing in them. -/
inductive SlotPlace where
  | memory
  | incoming (bad : List Nat)
  | outgoing
  deriving DecidableEq, Repr

/-- A gang switched out (R67, R68): its crew and each core's context, which its partition's context area in memory keeps. -/
structure Saved where
  crew : Nat
  /-- the stage it was in -/
  st : CrewSt
  ctxs : List (Nat × Ctx)
  /-- the cores whose strand had executed HALT, and those whose context a fault had put in the pre-emption slot -/
  halted : List Nat
  faulted : List Nat
  /-- the header of each core's image (R72), and the accumulators that its last save wrote (R213) -/
  heads : List (Nat × Bits512)
  lacs : List (Nat × BitVec 4)
  place : SlotPlace
  /-- the cores whose image an error struck in its pre-emption slot before it was copied out (R224) -/
  bad : List Nat
  deriving DecidableEq, Repr

/-- The clock of each compute class in units of 100 MHz (R21). -/
structure Clocks where
  dmx : BitVec 5
  spx : BitVec 5
  vec : BitVec 5
  srt : BitVec 5
  deriving DecidableEq, Repr

/-- The power governor (R21, R22): the clocks that run, those it has chosen, which run from the next 3.0 GHz slot on, the steps taken
down with the last first, the consecutive ticks for which power has stayed below 95 % of the cap, and the power last measured in
milliwatts. -/
structure Governor where
  run : Clocks
  set : Clocks
  lowered : List Cls
  below : Nat
  power : Nat
  deriving DecidableEq, Repr

/-- A management mailbox (R425): that of a PF, or the sideband's. msix is the PF's vector 0, or the answer over the sideband. -/
structure Mailbox where
  mw : NMap Word
  busy : Bool
  op : BitVec 8
  status : BitVec 16
  mdata : NMap Word
  msix : Bool
  deriving DecidableEq, Repr

/-- A command held during an activation pause (R420): of a command page, by partition, or of a management mailbox. -/
inductive HeldCmd where
  | host (part op : Nat)
  | mgmt (box op : Nat)
  deriving DecidableEq, Repr

/-- The hub's control processor, an RV32IMC core with 256 KiB of tightly coupled memory (R417): x1 to x31, the program counter, the memory by
address (a byte not listed is 0), and whether it executes. -/
structure Ctl where
  regs : NMap (BitVec 32)
  pc : BitVec 32
  tcm : NMap Byte
  running : Bool
  deriving DecidableEq, Repr

/-- Management: the mailboxes of R425, boot flash, the device's identity (R421), the control processor (R417) and the held commands of
an activation pause (R419, R420). -/
structure Mgmt where
  boxes : NMap Mailbox
  fsvn : BitVec 16
  rsvn : BitVec 16
  pkg : BitVec 9
  indom : Bool
  staged : Bool
  slot : Bool
  mode : BitVec 2
  m0 : BitVec 128
  m1 : BitVec 128
  held : List HeldCmd
  pauseEnd : Nat
  newFw : Bool
  session : Bool
  measured : List Byte
  layout : Nat
  /-- the boot-flash slot that IMGOPEN opened -/
  opened : Option Bool
  /-- the slot of an accepted activation that waits for its quiesce point (R420) -/
  pending : Option Bool
  /-- the firmware fault interrupt, raised by a record of the root's fault domain (R62) -/
  fwFault : Bool
  ctl : Ctl
  /-- the running firmware image, and the microcode that each site runs (R417, R420) -/
  image : List Byte
  ucode : NMap (List Byte)
  /-- the UDS is locked until reset; each layer's CDI and identity key, the firmware's first (R421) -/
  udsLocked : Bool
  cdis : List (List Byte)
  idKeys : List (List Byte)
  /-- the word that the last read through a PF, the sideband or by firmware returned -/
  readBack : Word
  deriving DecidableEq, Repr

/-- A Foano port (R412): lanes in use (8, 4, or 0 when down), flits in its replay buffer, and how many of them have been delivered. -/
structure Foano where
  lanes : Nat
  replay : Nat
  wire : Nat
  deriving DecidableEq, Repr

/-- A drain request for a site: the partitions that asked, and the tick of the first (R423). -/
structure DrainReq where
  parts : List Nat
  since : Nat
  deriving DecidableEq, Repr

/-- A free buffer-table entry. -/
def Buf.zero : Buf :=
  { state := 0, gen := 0, size := 0, latch := 0, own := 0xFFFF, refs := 0, uop := 0, key := 0, pmem := 0, plc := false,
    fmt := 0, orcb := 0, hold1 := 0, hold2 := 0, hold3 := 0, xmap := 0, charged := [] }

/-- A free latch. -/
def Latch.free : Latch := { mode := 0, abh := false, holders := [], wq := [] }

/-- An extent in HBM. -/
def Ext.hbm : Ext := { st := .hbm, acc := 0, pinned := false }

/-- An engine with nothing queued. -/
def Engine.zero : Engine :=
  { queue := [], cur := none, frozenParts := [], elastic := [], pops := 0, base := [], saved := [], off := [] }

/-- An array share with no lease (R311). -/
def ArrayShare.zero : ArrayShare := { lhold := none, run := 0, last := 255, mstat := 0 }

/-- A walker with nothing loaded (DESIGN CHOICE, log 2). -/
def Walker.zero : Walker :=
  { store := [], regs := [], pc := 0, toff0 := 0, toff1 := 0, cur := false, closed := 0, count := 0, status := 0,
    trlast := 0, tclast := 0, esz := 0, tpitch := 0, maxi := 0, conf := false, el := 0, xvb := 0, yvb := 0, px := 0,
    py := 0, acc := 0 }

/-- A free region control block (R358 resets). -/
def Rcb.zero : Rcb :=
  { level := 0, part := 0, inh := 0, prio := 0, ceil := 0, policy := 0, state := 0, parent := 0, budget := 0, used := 0,
    binq := 0, binused := 0, age := 0, ovf := 0 }

/-- An empty fault ring. -/
def Ring.zero : Ring := { recs := [], head := 0 }

/-- A free node entry (R341 resets). -/
def Node.zero : Node :=
  { pend := 0, st := .waiting, pinh := false, prio := 0, width := 0, scr := 0, flags := 0, grid := false, rgen := 0,
    prefWord := 0, succs := [], argrec := 0, stencil := 0, gxl := 0, gyl := 0, slist := 0, args := 0, rcb := 0,
    released := [], done := [], fault := none, faultCore := 0, before := .waiting }

/-- A launch queue not created (R363 resets). -/
def LaunchQ.zero : LaunchQ :=
  { v := false, st := .running, before := .running, job := 0, csx := 0, csoff := 0, seq := 0, acode := 0, drops := 0,
    pkts := [], stat := [] }

/-- An empty resident slot (R356 resets). -/
def Slot.zero : Slot :=
  { state := 0, reason := 0, nimg := 0, sgen := 0, nnode := 0, nhand := 0, img0 := 0, img1 := 0, img2 := 0, img3 := 0,
    rcnt := 0, rtpl0 := 0, rtpl1 := 0, images := [], bufs := [] }

/-- A format range register not in use. -/
def Range.zero : Range := ⟨false, 0, 0, 0, false, false, 0, 0, 0⟩

/-- Masks of zeros. -/
def Masks.zero : Masks := { core := 0, array := 0, sort := 0, copy := 0 }

/-- A partition at reset: FSEL is 1 + p (R410). Masks of zeros and key slot 0 until firmware writes them. DESIGN CHOICE (log 73). -/
def Part.zero (p : Nat) : Part :=
  { masks := Masks.zero, key := 0, port := false, suspended := false, cutting := false, queues := [],
    exports := [], slots := [], cw := [], busy := false, op := 0, status := 0, fsel := BitVec.ofNat 15 (1 + p), axi := 0,
    abase := 0, aperr := 0, evovf := 0, events := [], evcount := 0, msix := 0, hostRead := [], hostStatus := 0 }

/-- A key slot with no material (R360 resets). -/
def Key.zero : Key := { valid := false, part := 0, nbuf := 0, material := 0, asked := false }

/-- An absent discovery-table entry. -/
def Disc.zero : Disc :=
  { ltv := 0, lanes := 0, cores := 0, inst := 0, st := .absent, site := 0, cls := 7, units := 0, fwver := 0, schg := 0,
    tchg := 0 }

/-- The governor at 3.0 GHz in every class (R3, R21). -/
def Governor.zero : Governor := { run := ⟨30, 30, 30, 30⟩, set := ⟨30, 30, 30, 30⟩, lowered := [], below := 0, power := 0 }

/-- A management mailbox at reset (R425). -/
def Mailbox.zero : Mailbox := { mw := [], busy := false, op := 0, status := 0, mdata := [], msix := false }

/-- The control processor before its code is loaded. DESIGN CHOICE (log 79). -/
def Ctl.zero : Ctl := { regs := [], pc := 0, tcm := [], running := false }

/-- Management before boot (log 6). -/
def Mgmt.zero : Mgmt :=
  { boxes := [], fsvn := 0, rsvn := 0, pkg := 0, indom := false, staged := false,
    slot := false, mode := 1, m0 := 0, m1 := 0, held := [], pauseEnd := 0,
    newFw := false, session := false, measured := [], layout := 3,
    opened := none, pending := none, fwFault := false, ctl := Ctl.zero, image := [], ucode := [], udsLocked := false, cdis := [],
    idKeys := [], readBack := 0 }

/-- A Foano port at full width (log 6). -/
def Foano.zero : Foano := { lanes := 8, replay := 0, wire := 0 }

/-- A drain request by nobody. -/
def DrainReq.zero : DrainReq := { parts := [], since := 0 }

/-- A ready-list item of zeros. -/
def Ready.zero : Ready := { node := 0, gx := 0, gy := 0, part := 0, cls := 0, level := 0, arrive := 0, aged := 0, stamp := 0, fresh := true }

/-- A crew of nobody. -/
def Crew.zero : Crew :=
  { node := 0xFFFF, gx := 0, gy := 0, part := 0, rcb := 0, site := 0, cores := [], st := .draining, scr := 0, scrLen := 0,
    flag := 0, flagLen := 0, bind := [], ready := Ready.zero, image := 0, prog := 0, held := [], savedFlags := [], htab := [],
    before := .running }

/-- A graph instance of nothing. -/
def Inst.zero : Inst :=
  { part := 0, slot := 0, queue := 0, seq := 0, nodes := [], htab := [], nent := 0, handoff := [], argEnt := 0,
    argOff := 0, sites := [] }

end Sys2Proof.Machine
end

