-- ==== Sys2Proof/Machine/State.lean ====
section
/-! DEFINITION. The state of the package, the reasons a step can stop, and the state after reset. -/

namespace Sys2Proof.Machine

/-- Whose turn a step takes and with what: plain data that the agenda sets before an instruction runs. -/
structure Turn where
  /-- package core number -/
  core : Nat
  /-- the crew of the strand acted for, which may be switched out -/
  crew : Nat
  site : Nat
  /-- engine id -/
  engine : Nat
  part : Nat
  /-- launch queue -/
  queue : Nat
  /-- a number naming the item acted on: a sequence number, node, crew, RCB or link -/
  item : Nat
  /-- move slot of the trigger (R63) and its bundle -/
  slot : Nat
  bidx : Word
  /-- operand ports as the triggering bundle left them (R112) -/
  ops : Operands
  /-- the checks of the triggering bundle have passed -/
  checked : Bool
  /-- the fault that FAULT delivers -/
  fault : Option FaultInfo
  /-- hub firmware acts (R47) -/
  fw : Bool
  deriving DecidableEq, Repr

/-- The tables that the hub and the MEMs keep (R288, R341, R356, R358, R360-R363): node entries, resident slots, region control blocks,
launch-queue descriptors, the launch export table, keys, format range registers and latches. -/
inductive HubTable where
  | node | slot | rcb | queueDesc | exportEntry | key | range | latch
  deriving DecidableEq, Repr

/-- What can be read from outside the cores: a word of a partition's pages by page and byte offset (R286, R408-R410), word w of entry i of
a table through a partition's control window, or by firmware, of a management mailbox's page or of the discovery table on a PF (R425), a
boot mailbox register by firmware (R47), and PLDM's readings (R424). -/
inductive ReadReg where
  | table (fw : Bool) (part : Nat) (t : HubTable) (i w : Nat)
  | queue (part q off : Nat)
  | command (part off : Nat)
  | control (part off : Nat)
  | faultRing (part off : Nat)
  | eventRing (part off : Nat)
  | mailbox (box off : Nat)
  | discovery (off : Nat)
  | boot (core i : Nat)
  | temperature (site : Nat)
  | power
  deriving DecidableEq, Repr

/-- What a party outside the model's machine does, or firmware as fw: an instruction, a command code written to a command page or to a
management mailbox, a read, or the heat of a chiplet in degrees C. -/
inductive InEvent where
  | instr (i : Instr) (part : Nat) (fw : Bool)
  | hostCmd (part : Nat) (op : BitVec 8)
  | mgmtCmd (box : Nat) (op : BitVec 8)
  | read (r : ReadReg)
  | heat (site deg : Nat)
  deriving DecidableEq, Repr

/-- What the hardware does between instructions, at a time that the spec leaves open. -/
inductive Inner where
  /-- a granule of a load read at its MEM (R227, R232): core, operation and granule -/
  | granule (core seq g : Nat)
  /-- the request of an ACQ or TACQ sent to its MEM (R277): core, crew and operation -/
  | send (core crew seq : Nat)
  /-- a pinned copy brought up to its buffer-table entry (R256) -/
  | coherence (pin : Nat)
  /-- the end of a reclaim (R261) -/
  | reclaim (bid : Nat)
  /-- a coded line written back (R104) -/
  | writeBack (line : Nat)
  /-- a read cache line evicted (R228) -/
  | evict (core line : Nat)
  /-- an extent put under recalibration, or released from it (R423) -/
  | recal (ext : Nat) (on : Bool)
  /-- the completion of an INVOKE whose paths read empty (R272) -/
  | endPacket (part q seq : Nat)
  /-- an instruction of the hub's control processor (R417) -/
  | ctl
  /-- a command code written by a host, or to the management mailbox (R409, R425) -/
  | hostCmd (part : Nat) (op : BitVec 8)
  | mgmtCmd (box : Nat) (op : BitVec 8)
  /-- a register read from outside (R5) -/
  | read (r : ReadReg)
  /-- a chiplet's report of its junction temperature (R424) -/
  | heat (site deg : Nat)
  deriving DecidableEq, Repr

/-- One piece of work of the agenda: what a step does. -/
inductive Task where
  /-- the core's fetch, decode and issue of one bundle -/
  | issue (core : Nat)
  /-- one instruction with its turn -/
  | run (t : Turn) (i : Instr)
  /-- an engine's next interruption unit, or its next pop -/
  | engine (e : Nat)
  /-- a walker's next instruction -/
  | walker (w : Nat)
  /-- the head packet of a launch queue -/
  | packet (part q : Nat)
  /-- a phase of the clock, which puts its own tasks at the front -/
  | phase (n : Nat)
  /-- an act of the hardware between instructions -/
  | inner (x : Inner)
  deriving DecidableEq, Repr

/-- The state of the package. Per-core, per-site and per-table items are held by number with the reset value elided. -/
structure State where
  agenda : List Task
  turn : Turn
  /-- clocks of the 3.0 GHz arithmetic clock since package reset; 30 make a tick (R3) -/
  now : Nat
  /-- the index of the next free value: the model's own counter (log 4) -/
  draws : Nat
  inbox : List (Nat × InEvent)
  population : Population
  cores : NMap Core
  /-- CYCLE of each site (R152) -/
  cycles : NMap Nat
  mem : List Host.Cell
  /-- poisoned 64-byte granules by address / 64 (R231) -/
  poison : List Nat
  /-- 128-byte lines of coded buffers not yet written back (R104) -/
  coded : List Nat
  bufs : NMap Buf
  pins : NMap Pin
  freedBids : List Nat
  /-- extents of each MEM in use -/
  extUsed : NMap Nat
  exts : NMap Ext
  /-- tier-2 devices: extents installed behind each MEM, 0 for none -/
  tier2 : NMap Nat
  ranges : NMap Range
  reclaims : List Nat
  latches : NMap Latch
  regions : NMap Region
  bins : NMap Bin
  engines : NMap Engine
  arrays : NMap ArrayShare
  walkers : NMap Walker
  ssm : List SsmReq
  ssmGroups : NMap SsmGroup
  /-- banks held by a write in its second clock: site * 256 + bank, parity banks from 128 (R220) -/
  ssmHeld : List Nat
  flags : NMap (BitVec 16)
  prc : NMap (BitVec 16)
  remotes : List RemoteInc
  diagShared : NMap (BitVec 32)
  rcbs : NMap Rcb
  rings : NMap Ring
  nodes : NMap Node
  ready : List Ready
  crews : NMap Crew
  /-- identifiers of ended crews that are not assigned again before every PRC has read 0 (R373) -/
  crewsEnded : List Nat
  insts : NMap Inst
  parts : NMap Part
  disc : NMap Disc
  keys : NMap Key
  slices : NMap Slice
  saved : List Saved
  governor : Governor
  mgmt : Mgmt
  foano : NMap Foano
  /-- domain route table: four port numbers of 5 bits per package (R413) -/
  routes : NMap (BitVec 20)
  /-- packages that have left the domain (R414) -/
  left : List Nat
  /-- fabric links that are down, and links being retrained (R11, R422) -/
  linksDown : List Nat
  drains : NMap DrainReq
  /-- sites whose drain firmware has forced (R423) -/
  forced : List Nat
  /-- the partition after the one served last by dispatch (R348) -/
  tgsNext : Nat
  /-- a round of dispatch that a tick's 32 dispatches have cut short (R348): where it started, its next place, and whether it has
  dispatched anything -/
  tgsRound : Option (Nat × Nat × Bool)
  /-- order numbers for arrivals, pushes and dispatches -/
  stamp : Nat
  hostLinkDown : Bool
  /-- the bytes of buffers that have been written, and the elements that pairs have been accepted for, since the waits on signals were last
  evaluated (R291, R339, R375) -/
  written : List Nat
  /-- the fabric's routing table (R12): the sites on the route from site a to site b, at 32 a + b -/
  fabric : NMap (List Nat)
  /-- compute sites with an error that could not be corrected, whose drain firmware will force (R423) -/
  errored : List Nat
  /-- junction temperatures last reported, in degrees C (R424) -/
  temps : NMap Nat
  deriving DecidableEq, Repr

/-- Why a step ends the run. -/
inductive Fault where
  /-- raised by step after R424 has shut the package down: a MEM, hub or link chiplet reached 105 degrees C and nothing runs
  any more. Safe: the spec gives the package no step after it. -/
  | packageOff
  deriving DecidableEq, Repr

/-- Why a step has no meaning. -/
inductive Refusal where
  /-- an instruction whose meaning this model does not have yet -/
  | notModelled (mnemonic : String)
  deriving DecidableEq, Repr

/-- A turn of nobody. -/
def Turn.zero : Turn :=
  { core := 0, crew := 0, site := 0, engine := 0, part := 0, queue := 0, item := 0, slot := 0, bidx := 0, ops := Operands.zero,
    checked := false, fault := none, fw := false }

/-- The package right after reset: the boot ROM's BOOT is the first step (R419). Every field is at the value the spec gives for
reset, or at the value that log 2, 3, 4 or 6 names. -/
def State.reset : State :=
  { agenda := [.run Turn.zero .boot], turn := Turn.zero, now := 0, draws := 0, inbox := [], population := .f, cores := [],
    cycles := [], mem := [], poison := [], coded := [], bufs := [], pins := [], freedBids := [],
    extUsed := [], exts := [], tier2 := [], ranges := [], reclaims := [], latches := [], regions := [], bins := [],
    engines := [], arrays := [], walkers := [], ssm := [], ssmGroups := [], ssmHeld := [], flags := [], prc := [],
    remotes := [], diagShared := [], rcbs := [], rings := [], nodes := [], ready := [], crews := [], crewsEnded := [], insts := [],
    parts := [], disc := [], keys := [], slices := [], saved := [], governor := Governor.zero, mgmt := Mgmt.zero,
    foano := [], routes := [], left := [], linksDown := [], drains := [], forced := [], tgsNext := 0, tgsRound := none, stamp := 1,
    hostLinkDown := false, written := [], fabric := [], errored := [], temps := [] }

end Sys2Proof.Machine
end

