-- ==== Sys2Proof/Config.lean ====
section
/-! DEFINITION. What one package fixes and what the spec leaves open: the free values, as constants without a body (log 4), and the
file formats the spec does not lay out (log 6). -/

namespace Sys2Proof

/-- The k-th free value: every time, order and choice that the spec leaves open is read from it through State.draws.
DESIGN CHOICE (log 4). -/
opaque Config.draw : Nat → Nat

/-- A free 64-bit value, for a result the spec leaves open. DESIGN CHOICE (log 4). -/
opaque Config.freeWord : Nat → BitVec 64

/-- The image a byte string spells: the cuas image layout is not in the spec (06_assembly.md); none for a malformed image.
DESIGN CHOICE (log 6). -/
opaque Config.parseImage : List Byte → Option Machine.Image

/-- SHA-384 and HMAC-SHA-384, of standards outside the spec (R418, R421). DESIGN CHOICE (log 6). -/
opaque Config.sha384 : List Byte → List Byte
/-- HMAC-SHA-384 of a key and a message. -/
opaque Config.hmac384 : List Byte → List Byte → List Byte

/-- The part of a firmware image that its digest covers, and the digest in its header (R418); the image's layout is not in the spec.
DESIGN CHOICE (log 6). -/
opaque Config.imageBody : List Byte → List Byte
/-- The digest in an image's header. -/
opaque Config.imageDigest : List Byte → List Byte

/-- Whether an image's RSASSA-PSS signature verifies over a digest against the fused keys (R418). DESIGN CHOICE (log 6). -/
opaque Config.rsaVerifies : List Byte → List Byte → Bool
/-- Whether an image's SLH-DSA signature verifies over a digest against the fused keys (R418). -/
opaque Config.slhVerifies : List Byte → List Byte → Bool

/-- The control processor's code in a firmware image, and the microcode it carries for a site (R417). DESIGN CHOICE (log 6). -/
opaque Config.imageCode : List Byte → List Byte
/-- The microcode of a site. -/
opaque Config.imageMicrocode : List Byte → Nat → List Byte

/-- The fused UDS, the boot ROM, and the ECDSA P-384 identity key that a layer derives from its CDI (R421). DESIGN CHOICE (log 6). -/
opaque Config.uds : List Byte
/-- The contents of the boot ROM. -/
opaque Config.bootRom : List Byte
/-- The identity key of a CDI. -/
opaque Config.identityKey : List Byte → List Byte

/-- The route that firmware writes between two sites round a set of sites (R12): firmware's choice. DESIGN CHOICE (log 80). -/
opaque Config.fabricRoute : List Nat → Nat → Nat → List Nat

/-- The slots for flits of a fabric link's receiver (R365). DESIGN CHOICE (log 80). -/
opaque Config.linkSlots : Nat → Nat

/-- The security version number a firmware image carries (R417). DESIGN CHOICE (log 6). -/
opaque Config.imageSvn : List Byte → BitVec 16

/-- The context layout version a firmware image carries (R73). -/
opaque Config.imageLayout : List Byte → Nat

/-- The latency-table version of a class in a firmware image (R420). -/
opaque Config.imageLtv : List Byte → Nat → BitVec 8

/-- The firmware version a firmware image gives a site (R352, R420). -/
opaque Config.imageFw : List Byte → Nat → BitVec 32

/-- The CRC-32 of a marker record's bits [127:32]; its polynomial is not in the spec (R419). -/
opaque Config.markerCrc : BitVec 96 → BitVec 32

/-- Measured package power in milliwatts in the k-th measurement, and of each class (R21). -/
opaque Config.power : Nat → Nat
/-- Measured power of a class (0 DMX, 1 SPX, 2 VEC, 3 SRT) in the k-th measurement, in milliwatts. -/
opaque Config.classPower : Nat → Nat → Nat

/-- The size in bytes of a strand's context image in a save layout: the body is published with the firmware that writes it (R72).
DESIGN CHOICE (log 6). -/
opaque Config.contextBytes : Nat → Machine.Ctx → BitVec 29

end Sys2Proof
end

