-- ==== Sys2Proof/Machine/Ops.lean ====
section
/-! DEFINITION. The named operations over the state: cores, sites and classes, free values, scheduled results, and the shared
operations of taking an exception and returning from one (R53-R61). -/

namespace Sys2Proof.Machine

/-! ## Cores, sites and classes -/

/-- A core by package core number (R10). -/
def State.core (s : State) (n : Nat) : Core := s.cores.get n Core.zero

/-- The state with a core replaced. -/
def State.setCore (s : State) (n : Nat) (c : Core) : State := { s with cores := s.cores.set n c }

/-- The state with a core changed. -/
def State.modCore (s : State) (n : Nat) (f : Core → Core) : State := s.setCore n (f (s.core n))

/-- A core with its strand's context changed. -/
def Core.modCtx (c : Core) (f : Ctx → Ctx) : Core := { c with ctx := f c.ctx }

/-- The state with the context on a core changed. -/
def State.modCtx (s : State) (n : Nat) (f : Ctx → Ctx) : State := s.modCore n (fun c => c.modCtx f)

/-- The context of the strand whose turn it is. -/
def State.tctx (s : State) : Ctx := (s.core s.turn.core).ctx

/-- The site of a core (R10). -/
def siteOf (core : Nat) : Nat := core / 16

/-- The class of a site in a population (R8, R9). -/
def siteClass (p : Population) (site : Nat) : Cls :=
  match site with
  | 0 => .vec | 1 => .srt | 2 => .srt | 3 => .vec | 4 => .dmx
  | 5 => match p with | .d => .dmx | _ => .spx
  | 6 => match p with | .d => .dmx | _ => .spx
  | 7 => .dmx
  | 8 => match p with | .g => .vec | _ => .dmx
  | 9 => .vec | 10 => .vec
  | 11 => match p with | .g => .vec | _ => .dmx
  | 12 => .vec | 13 => .vec | 14 => .vec | 15 => .vec
  | 24 => .hub | 25 => .link | 26 => .link
  | _ => .mem

/-- The class of a site. -/
def State.cls (s : State) (site : Nat) : Cls := siteClass s.population site

/-- The class of the chiplet that carries a core. -/
def State.coreCls (s : State) (core : Nat) : Cls := s.cls (siteOf core)

/-- Whether a number names a core of the package (R10). -/
def State.isCore (s : State) (n : Nat) : Bool :=
  decide (n < 256) &&
    match s.coreCls n with
    | .dmx => true
    | .vec => true
    | .spx => decide (n % 16 < 8)
    | .srt => decide (n % 16 < 8)
    | _ => false

/-- The number of arrays on a chiplet (R14). -/
def arraysOf : Cls → Nat
  | .dmx => 8
  | .spx => 4
  | _ => 0

/-- The class code of R72 and R352. -/
def Cls.code : Cls → Nat
  | .dmx => 0 | .spx => 1 | .vec => 2 | .srt => 3 | .mem => 4 | .hub => 5 | .link => 6

/-- The clock of a site in units of 100 MHz (R21): only compute classes are slowed. DESIGN CHOICE (log 8). -/
def State.clockOf (s : State) (site : Nat) : Nat :=
  match s.cls site with
  | .dmx => s.governor.run.dmx.toNat
  | .spx => s.governor.run.spx.toNat
  | .vec => s.governor.run.vec.toNat
  | .srt => s.governor.run.srt.toNat
  | _ => 30

/-- Whether a site has a clock in the present 3.0 GHz slot: k of every 30 slots of a tick for a clock of k * 100 MHz.
DESIGN CHOICE (log 8). -/
def State.clocked (s : State) (site : Nat) : Bool :=
  let k := s.clockOf site
  decide ((s.now + 1) * k / 30 > s.now * k / 30)

/-- TICK (R3, R152). DESIGN CHOICE (log 8). -/
def State.tick (s : State) : Nat := s.now / 30

/-- CYCLE of a site (R152). -/
def State.cycle (s : State) (site : Nat) : Nat := s.cycles.get site 0

/-! ## Free values (log 4) -/

/-- Reads a free value below n and advances the counter. DESIGN CHOICE (log 4). -/
def State.draw (s : State) (n : Nat) : Nat × State :=
  (Config.draw s.draws % n, { s with draws := s.draws + 1 })

/-- Reads a free yes or no. -/
def State.flip (s : State) : Bool × State :=
  (Config.draw s.draws % 2 == 1, { s with draws := s.draws + 1 })

/-! ## Tables -/

def State.buf (s : State) (bid : Nat) : Buf := s.bufs.get bid Buf.zero
def State.setBuf (s : State) (bid : Nat) (b : Buf) : State := { s with bufs := s.bufs.set bid b }
def State.eng (s : State) (e : Nat) : Engine := s.engines.get e Engine.zero
def State.setEng (s : State) (e : Nat) (x : Engine) : State := { s with engines := s.engines.set e x }
def State.part (s : State) (p : Nat) : Part := s.parts.get p (Part.zero p)
def State.setPart (s : State) (p : Nat) (x : Part) : State := { s with parts := s.parts.set p x }
def State.rcb (s : State) (i : Nat) : Rcb := s.rcbs.get i Rcb.zero
def State.setRcb (s : State) (i : Nat) (r : Rcb) : State := { s with rcbs := s.rcbs.set i r }
def State.node (s : State) (i : Nat) : Node := s.nodes.get i Node.zero
def State.setNode (s : State) (i : Nat) (n : Node) : State := { s with nodes := s.nodes.set i n }
def State.crew (s : State) (i : Nat) : Crew := s.crews.get i Crew.zero
def State.setCrew (s : State) (i : Nat) (c : Crew) : State := { s with crews := s.crews.set i c }
def State.inst (s : State) (i : Nat) : Inst := s.insts.get i Inst.zero
def State.setInst (s : State) (i : Nat) (x : Inst) : State := { s with insts := s.insts.set i x }
def State.walker (s : State) (w : Nat) : Walker := s.walkers.get w Walker.zero
def State.setWalker (s : State) (w : Nat) (x : Walker) : State := { s with walkers := s.walkers.set w x }
def State.siteDisc (s : State) (i : Nat) : Disc := s.disc.get i Disc.zero
def State.setDisc (s : State) (i : Nat) (d : Disc) : State := { s with disc := s.disc.set i d }
def Part.queue (p : Part) (q : Nat) : LaunchQ := p.queues.get q LaunchQ.zero
def Part.slot (p : Part) (i : Nat) : Slot := p.slots.get i Slot.zero
def State.modPart (s : State) (p : Nat) (f : Part → Part) : State := s.setPart p (f (s.part p))
def State.modQueue (s : State) (p q : Nat) (f : LaunchQ → LaunchQ) : State :=
  s.modPart p (fun x => { x with queues := x.queues.set q (f (x.queue q)) })

/-- A slice of nobody. -/
def Slice.zero : Slice := ⟨0, 0, false⟩

/-- The slice of a resource. -/
def State.slice (s : State) (k : Nat) : Slice := s.slices.get k Slice.zero

/-- Whether a cut of a partition is in progress, of all of it or of one resource that it shares (R66). -/
def State.partCutting (s : State) (p : Nat) : Bool := (s.part p).cutting || s.slices.any (fun x => x.2.cutting && x.2.part == p)

/-- Whether a cut in progress affects a crew: it is cut from every resource, or from a core that the crew holds (R66). -/
def State.underCut (s : State) (k : Nat) : Bool :=
  let c := s.crew k
  (s.part c.part).cutting || c.cores.any (fun n => (s.slice n).cutting && (s.slice n).part == c.part)

/-- The state with tasks put at the front of the agenda. -/
def State.front (s : State) (ts : List Task) : State := { s with agenda := ts ++ s.agenda }

/-! ## Strands

A strand is named by its core and its crew: its context is on the core, in the core's pre-emption slot, or among the saved
gangs (R61, R68). -/

/-- The saved contexts with one strand's context changed. -/
def modSaved (core crew : Nat) (f : Ctx → Ctx) : List Saved → List Saved
  | [] => []
  | g :: gs =>
    (if g.crew = crew then { g with ctxs := g.ctxs.map (fun p => if p.1 = core then (p.1, f p.2) else p) } else g)
      :: modSaved core crew f gs

/-- The state with a strand's context changed wherever it is held. -/
def State.modStrand (s : State) (core crew : Nat) (f : Ctx → Ctx) : State :=
  let c := s.core core
  if c.mode ≠ .idle ∧ c.ctx.crew = crew then
    s.setCore core { c with ctx := f c.ctx, preempt := c.preempt.map f }
  else { s with saved := modSaved core crew f s.saved }

/-- The context of a strand wherever it is held. -/
def State.strand (s : State) (core crew : Nat) : Option Ctx :=
  let c := s.core core
  if c.mode ≠ .idle ∧ c.ctx.crew = crew then some c.ctx
  else
    match s.saved.find? (fun g => g.crew == crew) with
    | some g => (g.ctxs.find? (fun p => p.1 == core)).map (fun p => p.2)
    | none => none

/-! ## Results of fixed-latency operations (R145) -/

/-- A key of the port latches: unit and selector. -/
def portKey (fu : FU) (sel : Nat) : Nat := fu.id * 8 + sel

/-- A key of the result windows: unit and result port. -/
def winKey (fu : FU) (port : Nat) : Nat := fu.id * 4 + port

/-- A window with a new result at depth 0 (R145). -/
def Win.push {α : Type} (w : Win α) (x : α) : Win α := ⟨x, w.d0, w.d1, w.d2⟩

/-- A window's value at a depth. -/
def Win.at {α : Type} (w : Win α) (d : Nat) : α :=
  match d with
  | 0 => w.d0
  | 1 => w.d1
  | 2 => w.d2
  | _ => w.d3

/-- A result written into its port's window, shifting that window only (R145). -/
def Ctx.pushResult (x : Ctx) (fu : FU) (port : Nat) (v : ResVal) : Ctx :=
  let k := winKey fu port
  match v with
  | .s w => { x with swin := x.swin.set k ((x.swin.get k (Win.zero 0)).push w) }
  | .v t => { x with vwin := x.vwin.set k ((x.vwin.get k (Win.zero 0)).push t) }
  | .k h => { x with kwin := x.kwin.set k ((x.kwin.get k (Win.zero 0)).push h) }

/-- Several results of one operation. -/
def Ctx.pushResults (x : Ctx) (fu : FU) : List (Nat × ResVal) → Ctx
  | [] => x
  | p :: ps => Ctx.pushResults (x.pushResult fu p.1 p.2) fu ps

/-- The next operation number of a strand. -/
def Ctx.nextSeq (x : Ctx) : Ctx := { x with seq := x.seq + 1 }

/-- Puts an operation in flight on the core whose turn it is: it writes its ports lat unfrozen clocks after this one. -/
def State.emit (s : State) (fu : FU) (lat : Nat) (writes : List (Nat × ResVal)) : State :=
  s.modCore s.turn.core (fun c =>
    { c with
      ctx := c.ctx.nextSeq
      inflight := c.inflight ++
        [{ fu := fu, due := c.age + lat, seq := c.ctx.seq + 1, writes := writes, raised := 0, enabled := 0, lowest := 0,
           bidx := s.turn.bidx, slot := s.turn.slot, macC := false }] })

/-- As emit, for an operation that raises conditions (R179): enabled holds the trap enables, lowest the lowest element that
raised an enabled condition; macC says that the result also goes to the unit's port C (R187). -/
def State.emitFp (s : State) (fu : FU) (lat : Nat) (writes : List (Nat × ResVal)) (raised enabled : BitVec 5) (lowest : Nat)
    (macC : Bool) : State :=
  s.modCore s.turn.core (fun c =>
    { c with
      ctx := c.ctx.nextSeq
      inflight := c.inflight ++
        [{ fu := fu, due := c.age + lat, seq := c.ctx.seq + 1, writes := writes, raised := raised, enabled := enabled,
           lowest := lowest, bidx := s.turn.bidx, slot := s.turn.slot, macC := macC }] })

/-! ## Exceptions: what a bundle's check can find -/

/-- What the check of an operation finds: it may go on, its core freezes in this clock on something (with the sill slot when it
is one), or it stops the bundle. -/
inductive Check where
  | ok
  | freeze (slot : Option Nat)
  | fault (f : FaultInfo)
  | trap (t : TrapInfo)
  deriving DecidableEq, Repr

/-- The codes of R75. -/
def cILLEGAL_BUNDLE : Nat := 0x10
def cILLEGAL_TRANSPORT : Nat := 0x11
def cILLEGAL_CMD : Nat := 0x12
def cUNCONF_VREG : Nat := 0x13
def cBAD_SHAPE : Nat := 0x14
def cCAP_RIGHTS : Nat := 0x20
def cCAP_BOUNDS : Nat := 0x21
def cCAP_GEN : Nat := 0x22
def cCAP_HOLDER : Nat := 0x23
def cHANDED : Nat := 0x24
def cALLOC_EXHAUSTED : Nat := 0x25
def cPOISON : Nat := 0x30
def cMEM_TIMEOUT : Nat := 0x31
def cSTORE_UNRESOLVED : Nat := 0x32
def cNO_CLASS : Nat := 0x40
def cTRAP_UNHANDLED : Nat := 0x41
def cDOUBLE_TRAP : Nat := 0x42
def cNO_LEASE : Nat := 0x50
def cENGINE : Nat := 0x51
def cWALKER : Nat := 0x52
/-- The trap codes of R75. -/
def cSWTRAP : Nat := 0x01
def cARITH : Nat := 0x02
def cWAIT_TIMEOUT : Nat := 0x03
def cMISALIGN : Nat := 0x04

/-- A fault of a strand at a bundle and move slot (R60, R63 SRC 0). -/
def strandFault (code slot : Nat) (bidx : Word) (detail : Word) (h : Handle) : FaultInfo :=
  { code := code, src := 0, more := false, slot := slot, bidx := bidx.toNat % 8192, detail := detail, handle := h,
    estat := 0, esite := 0, eng := 0, cidxq := 0, pidxv := 0 }

/-- A fault at the triggering move of the turn. -/
def State.faultHere (s : State) (code : Nat) (detail : Word) (h : Handle) : Check :=
  .fault (strandFault code s.turn.slot s.turn.bidx detail h)

/-- DETAIL of a trap that became a fault (R54). -/
def trapDetail (t : TrapInfo) : Word :=
  BitVec.ofNat 64 (t.cause + (t.fu % 256) * 2 ^ 8 + (t.info1.toNat % 2 ^ 48) * 2 ^ 16)

/-- A strand trap as the strand meets it: with no handler it is TRAP_UNHANDLED, inside a handler DOUBLE_TRAP, and otherwise the
trap itself (R54). With no handler inside a handler the spec gives no order: DOUBLE_TRAP is reported. DESIGN CHOICE (log 74). -/
def Ctx.trapOr (x : Ctx) (t : TrapInfo) (slot : Nat) (bidx : Word) : Check :=
  if x.inTrap then .fault (strandFault cDOUBLE_TRAP slot bidx (trapDetail t) 0)
  else if x.tvec = 0 then .fault (strandFault cTRAP_UNHANDLED slot bidx (trapDetail t) 0)
  else .trap t

/-! ## Taking an exception (R58, R61) and returning from one (R59) -/

/-- A long operation parked because issue stopped (R183); trap says that a strand trap stopped it. -/
def LongOp.park (trap : Bool) (l : LongOp) : LongOp := { l with parked := true, trapped := l.trapped || trap }

/-- A long operation that may advance again: TRET releases those that the trap parked, RESUME and restore the others (R183). -/
def LongOp.unpark (tret : Bool) (l : LongOp) : LongOp :=
  if l.trapped && !tret then l else { l with parked := false, trapped := false }

/-- The long operations of a strand parked (R183). -/
def Ctx.parkLongs (trap : Bool) (x : Ctx) : Ctx :=
  { x with vxuLong := x.vxuLong.map (LongOp.park trap), vlsLong := x.vlsLong.map (LongOp.park trap) }

/-- The long operations of a strand whose issue resumes (R183). -/
def Ctx.unparkLongs (tret : Bool) (x : Ctx) : Ctx :=
  { x with vxuLong := x.vxuLong.map (LongOp.unpark tret), vlsLong := x.vlsLong.map (LongOp.unpark tret) }

/-- A context whose image has just been written, or that its image has just given back: every mark of a change since then is 0
(R68, R169, R213). -/
def Ctx.clean (x : Ctx) : Ctx := { x with dirty := 0, lacDirty := 0 }

/-- Whether a stop is a strand trap. -/
def Stop.isTrap (w : Stop) : Bool :=
  match w with
  | .trap _ => true
  | _ => false

/-- Whether a stop is the STORE_UNRESOLVED of a noted store, whose fault is then raised (R279). -/
def Stop.reports (w : Stop) (b : Nat × Nat × Handle) : Bool :=
  match w with
  | .fault f => f.code == 0x32 && f.detail == BitVec.ofNat 64 b.2.1 && f.handle == b.2.2
  | _ => false

/-- Issue stops on a core for a reason, and its drain begins (R58 step 2, R61 step 1, R66 step 2). Its long operations park in the
first clock with no issue: this one, unless a bundle has issued in it or a pause or hold was counted (R183). A fault is taken
instead of an ARITH due at the same boundary (R71, R200). -/
def State.stopIssue (s : State) (n : Nat) (w : Stop) : State :=
  let drops : Bool := match w with
    | .fault _ => true
    | .trap t => t.cause == cARITH
    | _ => false
  s.modCore n (fun c =>
    let x := if c.busy then c.ctx else c.ctx.parkLongs w.isTrap
    { c with mode := .drain w, hold := none, freeze := none, faultAt := s.now,
             ctx := { x with arith := if drops then none else x.arith, noted := x.noted.filter (fun b => !w.reports b) } })

/-- What trap entry saves to the trap slot (R58 step 5). -/
def Ctx.saveTrap (x : Ctx) : TrapSlot :=
  { sport := x.sport, vport := x.vport, kport := x.kport, swin := x.swin, vwin := x.vwin, kwin := x.kwin, prf := x.prf,
    lc := x.lc, esc := x.esc, rrb := x.rrb, lhead := x.lhead, sillS := x.sillS, sillV := x.sillV, nopw := x.nopw,
    poisoned := false }

/-- Trap entry on a context, after the drain and the save (R58 steps 5-7): the trap slot, the trap registers, and the handler's
entry at TVEC. -/
def Ctx.enterTrap (x : Ctx) (t : TrapInfo) : Ctx :=
  { x with
    trapSlot := some x.saveTrap
    tcCode := BitVec.ofNat 8 t.cause
    tcFu := BitVec.ofNat 5 t.fu
    tinfo0 := t.info0
    tinfo1 := t.info1
    tinfo2 := t.info2
    tret := t.ret
    inTrap := true
    nopw := 0
    pc := x.tvec.setWidth 64 }

/-- The return from a trap on a context (R59 steps 3-5): the trap slot restored over the live latches, windows, predicates,
loop state and sill slots, INTRAP cleared, and issue at TSTAT.RET. -/
def Ctx.returnTrap (x : Ctx) : Ctx :=
  match x.trapSlot with
  | none => { x with inTrap := false, pc := x.tret.setWidth 64 }
  | some t =>
    { x with
      sport := t.sport
      vport := t.vport
      kport := t.kport
      swin := t.swin
      vwin := t.vwin
      kwin := t.kwin
      prf := t.prf
      lc := t.lc
      esc := t.esc
      rrb := t.rrb
      lhead := t.lhead
      sillS := t.sillS
      sillV := t.sillV
      nopw := t.nopw
      trapSlot := none
      inTrap := false
      pc := x.tret.setWidth 64 }

/-- The wrapper of every triggered operation: its checks are those of the triggering bundle, made by MOVE before anything of the
bundle is written (R60, R112). An operation run on its own makes them itself, and a stop they find stops its strand. -/
def guarded (chk : State → Check) (eff : State → State) (s : State) : Host.Outcome State Fault Refusal :=
  if s.turn.checked then .next (eff s)
  else
    match chk s with
    | .ok => .next (eff s)
    | .freeze _ => .next (s.modCore s.turn.core (fun c => { c with frozen := true }))
    | .fault f => .next (s.stopIssue s.turn.core (.fault f))
    | .trap t => .next (s.stopIssue s.turn.core (.trap t))

end Sys2Proof.Machine
end

