-- ==== Sys2Proof/Machine/Access.lean ====
section
/-! DEFINITION. Memory as handles reach it: handles and views (R248, R249), capability checks (R257), scratch addressing and shares
(R216-R218), poison (R231), pending update bins (R334, R335) and the memory codec (R101-R105). -/

namespace Sys2Proof.Machine

/-! ## Handles and views -/

/-- BID (R248). -/
def hBid (h : Handle) : Nat := fld h 40 24
/-- GEN. -/
def hGen (h : Handle) : Nat := fld h 32 8
/-- The rights R, W, U, H in bits 3, 2, 1, 0. -/
def hRights (h : Handle) : Nat := fld h 28 4
/-- VIEW. -/
def hView (h : Handle) : Nat := fld h 0 28
/-- A handle of its fields. -/
def mkHandle (bid gen rights view : Nat) : Handle :=
  BitVec.ofNat 64 (bid * 2 ^ 40 + gen % 256 * 2 ^ 32 + rights % 16 * 2 ^ 28 + view % 2 ^ 28)

/-- The rights a use needs (R250). -/
inductive Right where
  | r | w | u | h
  deriving DecidableEq, Repr

/-- Whether a handle carries a right. -/
def hasRight (h : Handle) : Right → Bool
  | .r => bitAt h.toNat 31
  | .w => bitAt h.toNat 30
  | .u => bitAt h.toNat 29
  | .h => bitAt h.toNat 28

/-- Whether a view index is valid for a buffer of a size (R249). -/
def viewValid (view size : Nat) : Bool :=
  if view = 0 then true
  else
    let k := bitsAt view 22 6
    let j := bitsAt view 0 22
    decide (12 ≤ k) && decide (k ≤ 40) && decide (j * 2 ^ k < size)

/-- The base of a view (R249). -/
def viewBase (view : Nat) : Nat := if view = 0 then 0 else bitsAt view 0 22 * 2 ^ bitsAt view 22 6

/-- The length of a view (R249); an invalid view has none. -/
def viewLen (view size : Nat) : Nat :=
  if view = 0 then size
  else if viewValid view size then min (2 ^ bitsAt view 22 6) (size - viewBase view)
  else 0

/-- The first buffer id of the window handles (R287). -/
def windowBid : Nat := 0xFFFC00

/-- A region control block and its ancestors, nearest first; at most four levels (R23). -/
def State.ancestors (s : State) (i : Nat) : Nat → List Nat
  | 0 => []
  | n + 1 =>
    let r := s.rcb i
    if r.level = 0 then [i] else i :: s.ancestors r.parent.toNat n

/-- The path from an RCB to the root. -/
def State.path (s : State) (i : Nat) : List Nat := s.ancestors i 4

/-- Whether an RCB is a holder of a buffer (R252). -/
def State.isHolder (s : State) (rcb : Nat) (b : Buf) : Bool :=
  (s.path rcb).any (fun i => i == b.orcb || (i != 0 && (i == b.hold1 || i == b.hold2 || i == b.hold3)))

/-- The window entry that the hub holds for a launch queue in place of a buffer-table entry (R287). -/
def State.windowBuf (s : State) (bid : Nat) : Buf :=
  let p := (bid - windowBid) / 16
  let q := (bid - windowBid) % 16
  { Buf.zero with state := if ((s.part p).queue q).v then 1 else 0, size := 64, orcb := 1 + p }

/-- The entry a site checks a handle against: its pinned copy, or the shard's entry where nothing is pinned (R255, R256). -/
def State.entryAt (s : State) (site bid : Nat) : Buf :=
  if windowBid ≤ bid then s.windowBuf bid
  else
    match s.pins.find (site * 2 ^ 24 + bid) with
    | some p => p.copy
    | none => s.buf bid

/-- The first three tests of R257: the code of the first that fails. node is none for accesses on behalf of no node. -/
def State.capBase (s : State) (site rcb : Nat) (node : Option Nat) (h : Handle) : Option Nat :=
  let e := s.entryAt site (hBid h)
  if h = 0 ∨ e.state ≠ 1 ∨ e.gen.toNat ≠ hGen h then some cCAP_GEN
  else if !s.isHolder rcb e then some cCAP_HOLDER
  else
    match node with
    | some n => if e.own ≠ 0xFFFF ∧ e.own.toNat ≠ n then some cHANDED else none
    | none => none

/-- The full check of R257 for an access of len bytes at an exact offset needing a right. -/
def State.capCheck (s : State) (site rcb : Nat) (node : Option Nat) (h : Handle) (off : Int) (len : Nat) (r : Right) : Option Nat :=
  match s.capBase site rcb node h with
  | some c => some c
  | none =>
    if !hasRight h r then some cCAP_RIGHTS
    else if off < 0 ∨ off + len > (viewLen (hView h) (s.entryAt site (hBid h)).size : Nat) then some cCAP_BOUNDS
    else none

/-- Whether an RCB is one of a partition's: its own, those under it, or the root above it. -/
def State.rcbOfPart (s : State) (p i : Nat) : Bool := i == 0 || ((s.rcb i).part.toNat == p && (s.rcb i).level != 0)

/-- Whether a buffer's holder set names one of a partition's RCBs (R287, R411). -/
def State.partHolds (s : State) (p : Nat) (b : Buf) : Bool :=
  s.rcbOfPart p b.orcb || [b.hold1, b.hold2, b.hold3].any (fun i => i != 0 && s.rcbOfPart p i)

/-- The first three tests of R257 for an access on behalf of no node, under a partition (R257, R409). -/
def State.hubBase (s : State) (p : Nat) (h : Handle) : Option Nat :=
  let e := if windowBid ≤ hBid h then s.windowBuf (hBid h) else s.buf (hBid h)
  if h = 0 ∨ e.state ≠ 1 ∨ e.gen.toNat ≠ hGen h then some cCAP_GEN
  else if !s.partHolds p e then some cCAP_HOLDER
  else none

/-- The check of R257 for an access on behalf of no node, under a partition: a host, or the hub for a launch packet. -/
def State.hubCap (s : State) (p : Nat) (h : Handle) (off : Int) (len : Nat) (r : Right) : Option Nat :=
  let e := if windowBid ≤ hBid h then s.windowBuf (hBid h) else s.buf (hBid h)
  match s.hubBase p h with
  | some c => some c
  | none =>
    if !hasRight h r then some cCAP_RIGHTS
    else if off < 0 ∨ off + len > (viewLen (hView h) e.size : Nat) then some cCAP_BOUNDS
    else none

/-- The RCB of a strand's graph instance; a boot-mailbox strand runs under the root (R48). -/
def State.rcbOf (s : State) (crew : Nat) : Nat := (s.crew crew).rcb

/-- The strand's own check of a handle in its triggering bundle. -/
def State.strandCap (s : State) (h : Handle) (off : Int) (len : Nat) (r : Right) : Option Nat :=
  let x := s.tctx
  s.capCheck (siteOf s.turn.core) (s.rcbOf x.crew) (some x.nodeId.toNat) h off len r

/-- The absolute memory address of byte o of a buffer. -/
def bufAddr (bid o : Nat) : Nat := bid * 2 ^ 40 + o

/-- The absolute address of an offset of a handle's view (R249). -/
def hAddr (h : Handle) (off : Nat) : Nat := bufAddr (hBid h) (viewBase (hView h) + off)

/-! ## Scratch memories and typed buffers -/

/-- The size of a core's private scratch (R215). -/
def State.psmSize (s : State) (core : Nat) : Nat :=
  match s.coreCls core with
  | .vec => 2 ^ 20
  | _ => 2 ^ 18

/-- Partitions whose mask, as f reads it, names a resource. DESIGN CHOICE (log 11). -/
def State.sharers (s : State) (f : Masks → Bool) : List Nat :=
  (s.parts.filter (fun p => f p.2.masks)).map (fun p => p.1)

/-- The divisor of R218 for a number of sharing partitions. -/
def shareDiv (n : Nat) : Nat := if n ≤ 1 then 1 else if n = 2 then 2 else if n ≤ 4 then 4 else 8

/-- The place of a partition among the sharers of a resource, in ascending partition number. DESIGN CHOICE (log 11). -/
def shareIndex (p : Nat) : List Nat → Nat
  | [] => 0
  | q :: qs => if q < p then 1 + shareIndex p qs else shareIndex p qs

/-- The base and size of a partition's share of a memory of a size (R218, R222). -/
def shareOf (total p : Nat) (sharers : List Nat) : Nat × Nat :=
  let size := total / shareDiv sharers.length
  (shareIndex p sharers % shareDiv sharers.length * size, size)

/-- A strand's share of its core's private scratch: base address and size (R218). DESIGN CHOICE (log 11). -/
def State.psmShare (s : State) (core part : Nat) : Nat × Nat :=
  let sh := shareOf (s.psmSize core) part (s.sharers (fun m => m.core.getLsbD core))
  (2 ^ 64 + core * 2 ^ 20 + sh.1, sh.2)

/-- The address of a byte of a chiplet's shared scratch. -/
def ssmAddr (site off : Nat) : Nat := 2 * 2 ^ 64 + site * 2 ^ 24 + off

/-- The size of a typed buffer: 0 W, 1 A, 2 C (R222). -/
def typedSize : Nat → Nat
  | 0 => 2 ^ 22
  | 1 => 2 ^ 21
  | _ => 2 ^ 20

/-- A partition's share of a typed buffer of an array: base address and size (R222). -/
def State.typedShare (s : State) (site array buf part : Nat) : Nat × Nat :=
  let sh := shareOf (typedSize buf) part (s.sharers (fun m => m.array.getLsbD (site * 8 + array)))
  (3 * 2 ^ 64 + ((site * 8 + array) * 4 + buf) * 2 ^ 22 + sh.1, sh.2)

/-! ## Poison (R231) -/

/-- The granules of n bytes at an address. -/
def granules (a n : Nat) : List Nat :=
  if n = 0 then [] else (List.range ((a + n - 1) / 64 - a / 64 + 1)).map (fun i => a / 64 + i)

/-- A sorted list of numbers with one inserted. -/
def insertNat (x : Nat) : List Nat → List Nat
  | [] => [x]
  | y :: ys => if x = y then y :: ys else if x < y then x :: y :: ys else y :: insertNat x ys

/-- Whether any granule of n bytes at an address is poisoned. -/
def State.isPoisoned (s : State) (a n : Nat) : Bool :=
  if s.poison.isEmpty then false else (granules a n).any (fun g => s.poison.contains g)

/-- Whether cells cover a whole granule. -/
def coversGranule (cs : List Host.Cell) (g : Nat) : Bool :=
  (List.range 64).all (fun i => cs.any (fun c => c.1 == g * 64 + i))

/-- Cells written to memory; a poisoned granule written whole is clean again (R231). -/
def State.writeMem (s : State) (cs : List Host.Cell) : State :=
  { s with
    mem := Memory.writeCells s.mem cs
    poison := if s.poison.isEmpty then s.poison else s.poison.filter (fun g => !coversGranule cs g) }

/-! ## Interleaving and extents (R232, R253) -/

/-- The XOR of the nine groups of three bits of a granule number. -/
def xorGroups (g : Nat) : Nat → Nat
  | 0 => 0
  | n + 1 => (bitsAt g (3 * n) 3) ^^^ xorGroups g n

/-- The MEM that holds a byte of a buffer (R253). -/
def memOf (b : Buf) (bid o : Nat) : Nat :=
  if b.plc then b.pmem.toNat
  else
    let g := o / 4096
    (bid % 8) ^^^ xorGroups g 9 ^^^ bitsAt g 27 1

/-- The place of a byte's granule among its buffer's granules on its MEM: they fill the extents in ascending order (R253). -/
def granuleRank (b : Buf) (o : Nat) : Nat := if b.plc then o / 4096 else o / 32768

/-- The extents a buffer takes on each MEM it touches, and in all (R253). -/
def extentsPerMem (size : Nat) (plc : Bool) : Nat := if plc then ceilDiv size (2 ^ 21) else ceilDiv size (2 ^ 24)
/-- Extents taken in all. -/
def extentsTotal (size : Nat) (plc : Bool) : Nat := if plc then extentsPerMem size plc else 8 * extentsPerMem size plc

/-- The key of the extent that holds a byte of a buffer. -/
def extKey (b : Buf) (bid o : Nat) : Nat := (bid * 8 + memOf b bid o) * 2 ^ 20 + granuleRank b o / 512

/-- The extent that holds an absolute buffer address. -/
def State.extAt (s : State) (a : Nat) : Nat :=
  let bid := a / 2 ^ 40
  extKey (s.buf bid) bid (a % 2 ^ 40)

/-- An extent's record. -/
def State.ext (s : State) (k : Nat) : Ext := s.exts.get k Ext.hbm

/-- The MEM of an extent key. -/
def extMem (k : Nat) : Nat := k / 2 ^ 20 % 8

/-- Whether a MEM serves accesses: a fenced MEM serves none until it returns (R423). -/
def State.memServes (s : State) (m : Nat) : Bool :=
  match (s.siteDisc (16 + m)).st with
  | .fenced => false
  | .calibrating => false
  | .absent => false
  | _ => true

/-- Whether an access to a buffer address is poisoned: by its granule, by a lost extent (R416), or by a fenced MEM (R423). -/
def State.bufPoisoned (s : State) (a n : Nat) : Bool :=
  s.isPoisoned a n ||
    (granules a n).any (fun g =>
      let k := s.extAt (g * 64)
      (s.ext k).st == .lost || !s.memServes (extMem k))

/-- An access to n bytes reaches their extents: each takes the slot of its last access, and a tier-2 extent starts its migration
(R232). DEDUCED (log 32). -/
def State.touchExts (s : State) (a n : Nat) : State :=
  (granules a n).foldl (fun t g =>
    let k := t.extAt (g * 64)
    let e := t.ext k
    let st := match e.st with | .tier2 => ExtSt.migrating | x => x
    { t with exts := t.exts.set k { e with acc := t.now, st := st } }) s

/-! ## Update bins (R331-R335) -/

/-- The element size of an update operator (R331). -/
def uopSize (u : Nat) : Nat :=
  match u with
  | 1 => 4 | 2 => 8 | 3 => 4 | 4 => 2 | 5 => 4 | 6 => 8 | 7 => 4 | 8 => 8
  | 9 => 4 | 10 => 8 | 11 => 4 | 12 => 8 | 13 => 8 | 14 => 8 | 15 => 8
  | _ => 0

/-- The smaller or larger of two floating elements, as VMIN and VMAX (R186): any NaN gives the canonical NaN. -/
def fpMinMax (f : FFmt) (wantMax : Bool) (a b : Nat) : Nat × Flags :=
  let x := f.decode a
  let y := f.decode b
  if x.isNaN || y.isNaN then (f.canonNaN, if x.isSig || y.isSig then fIVL else 0)
  else
    let aLess : Bool := x.lt y || (x.eq y && x.isNeg && !y.isNeg)
    let bLess : Bool := y.lt x || (x.eq y && y.isNeg && !x.isNeg)
    (if wantMax then (if aLess then b else a) else (if bLess then b else a), 0)

/-- The smaller or larger of two signed elements of b bits. -/
def intMinMax (signed : Bool) (w : Nat) (wantMax : Bool) (a b : Nat) : Nat :=
  let x := readInt signed w a
  let y := readInt signed w b
  if wantMax then (if x < y then b else a) else (if y < x then b else a)

/-- Two elements combined by an operator other than the floating adds (R334, R335). -/
def uopCombine (u : Nat) (a b : Nat) : Nat :=
  match u with
  | 1 => (a + b) % 2 ^ 32
  | 2 => (a + b) % 2 ^ 64
  | 5 => intMinMax true 32 false a b
  | 6 => intMinMax true 64 false a b
  | 7 => (fpMinMax .fp32 false a b).1
  | 8 => (fpMinMax .fp64 false a b).1
  | 9 => intMinMax true 32 true a b
  | 10 => intMinMax true 64 true a b
  | 11 => (fpMinMax .fp32 true a b).1
  | 12 => (fpMinMax .fp64 true a b).1
  | 13 => a ||| b
  | 14 => a &&& b
  | 15 => a ^^^ b
  | _ => a

/-- The format of a floating add operator. -/
def uopFmt (u : Nat) : FFmt := if u = 4 then .bf16 else .fp32

/-- A finite number in units of 2^-149 (R334). -/
def unitsOf : Num → Int
  | .fin n m e => let v : Int := (m <<< (e + 149).toNat : Nat); if n then -v else v
  | _ => 0

/-- A bin that has taken one pair (R334). -/
def Bin.take (b : Bin) (v : Nat) (stamp : Nat) : Bin :=
  let u := b.uop.toNat
  if u = 3 ∨ u = 4 then
    let x := (uopFmt u).decode v
    let sum := b.sum + unitsOf x
    { b with
      sum := if sum < -(2 : Int) ^ 319 ∨ sum ≥ (2 : Int) ^ 319 then
          (sum + (2 : Int) ^ 319) % (2 : Int) ^ 320 - (2 : Int) ^ 319 else sum
      pinf := b.pinf || (match x with | .inf n => !n | _ => false)
      ninf := b.ninf || (match x with | .inf n => n | _ => false)
      nan := b.nan || x.isNaN
      z := b.z && (match x with | .fin n m _ => n && m == 0 | _ => false)
      count := b.count + 1
      stamp := stamp }
  else
    { b with
      val := BitVec.ofNat 64 (if b.count = 0 then
          (match u with
           | 7 => (fpMinMax .fp32 false v v).1
           | 8 => (fpMinMax .fp64 false v v).1
           | 11 => (fpMinMax .fp32 true v v).1
           | 12 => (fpMinMax .fp64 true v v).1
           | _ => v)
          else uopCombine u b.val.toNat v)
      count := b.count + 1
      stamp := stamp }

/-- A bin with no pair yet. -/
def Bin.fresh (region : Nat) (uop : BitVec 5) : Bin :=
  { region := region, uop := uop, sum := 0, pinf := false, ninf := false, nan := false, z := true, val := 0, count := 0,
    stamp := 0, charged := [] }

/-- The element a bin's apply leaves in memory (R335). -/
def Bin.applyTo (b : Bin) (mem : Nat) : Nat :=
  let u := b.uop.toNat
  if u = 3 ∨ u = 4 then
    let f := uopFmt u
    let x := f.decode mem
    let xp : Bool := match x with | .inf n => !n | _ => false
    let xn : Bool := match x with | .inf n => n | _ => false
    if x.isNaN || b.nan || (b.pinf && b.ninf) || (xp && b.ninf) || (xn && b.pinf) then f.canonNaN
    else if xp || b.pinf then f.infCode false
    else if xn || b.ninf then f.infCode true
    else
      let sum := b.sum + unitsOf x
      if sum = 0 then
        (match x with
         | .fin true 0 _ => if b.z then f.pack true 0 0 else 0
         | _ => 0)
      else (f.round .rne false (decide (sum < 0)) sum.natAbs (-149)).1
  else if b.count = 0 then mem
  else uopCombine u mem b.val.toNat

/-- The 128-byte lines of n bytes at an address. -/
def linesOf (a n : Nat) : List Nat :=
  if n = 0 then [] else (List.range ((a + n - 1) / 128 - a / 128 + 1)).map (fun i => a / 128 + i)

/-- Whether a buffer is stored coded (R258). -/
def Buf.coded (b : Buf) : Bool := b.fmt.toNat % 8 != 0

/-- Cells written to a buffer's memory: lines of a coded buffer stand in the cache until they are written back (R104). Every wait on a signal is evaluated after it. -/
def State.writeBufRaw (s : State) (cs : List Host.Cell) : State :=
  let t := s.writeMem cs
  match cs with
  | [] => t
  | c :: _ =>
    let t := { t with written := cs.map (fun x => x.1) ++ t.written }
    if (s.buf (c.1 / 2 ^ 40)).coded then
      { t with coded := cs.foldl (fun l x => insertNat (x.1 / 128) l) t.coded }
    else t

/-- Whether an RCB inherits a field: bit 4 BUDGET, 3 PRIO, 2 POLICY, 1 BINQ, 0 AGE of INH (R358). The root sets every field. -/
def Rcb.inherits (r : Rcb) (i : Nat) : Bool := decide (r.level ≠ 0) && bitAt r.inh.toNat i

/-- A subtraction that stops at 0. -/
def subSat {w : Nat} (x : BitVec w) (n : Nat) : BitVec w := BitVec.ofNat w (x.toNat - n)

/-- The RCBs of a path that set a field (R24). -/
def State.setters (s : State) (field : Nat) (path : List Nat) : List Nat := path.filter (fun i => !(s.rcb i).inherits field)

/-- One bin counted, or released, at RCBs. DEDUCED (log 44). -/
def State.countBins (s : State) (ids : List Nat) (f : BitVec 32 → BitVec 32) : State :=
  ids.foldl (fun t i => t.setRcb i { t.rcb i with binused := f (t.rcb i).binused }) s

/-- The entry of a bin returned where it was counted (R25, R336). -/
def State.releaseBin (s : State) (b : Bin) : State := s.countBins b.charged (fun u => subSat u 1)

/-- One bin applied and freed (R335). -/
def State.applyBin (s : State) (a : Nat) : State :=
  match s.bins.find a with
  | none => s
  | some b =>
    let n := uopSize b.uop.toNat
    let old := ofBytes (Memory.readN s.mem a n)
    let t := { s.releaseBin b with bins := s.bins.erase a }
    if s.isPoisoned a n then t else t.writeBufRaw (Memory.cellsAt a (toBytes (b.applyTo old) n))

/-- Every bin of the granules an access covers, applied before the access (R335). -/
def State.applyBins (s : State) (a n : Nat) : State :=
  if s.bins.isEmpty then s
  else
    let lo := a / 64 * 64
    let hi := (a + n + 63) / 64 * 64
    (s.bins.filter (fun p => decide (lo ≤ p.1) && decide (p.1 < hi))).foldl (fun t p => t.applyBin p.1) s

/-! ## Buffer accesses at the MEM -/

/-- What an access to n bytes of buffer memory does at its MEM first: pending bins of their granules apply (R335), and the extents take
note of it (R232). -/
def State.openAccess (s : State) (a n : Nat) : State := (s.applyBins a n).touchExts a n

/-- A read of n bytes of buffer memory as a MEM serves it: pending bins apply first, and poison is reported. -/
def State.readBuf (s : State) (a n : Nat) : (List Byte × Bool) × State :=
  let t := s.openAccess a n
  ((Memory.readN t.mem a n, t.bufPoisoned a n), t)

/-- A write of cells of one buffer as a MEM serves it: pending bins of their granules apply first. -/
def State.writeBuf (s : State) (cs : List Host.Cell) : State :=
  (cs.foldl (fun t c => t.applyBins c.1 1) s).writeBufRaw cs

/-- A write of bytes from a buffer address upward. -/
def State.writeBufBytes (s : State) (a : Nat) (bs : List Byte) : State :=
  (s.openAccess a bs.length).writeBufRaw (Memory.cellsAt a bs)

/-! ## The memory codec (R101-R105) -/

/-- The served format of a coded buffer. -/
def Buf.served (b : Buf) : FFmt := if bitAt b.fmt.toNat 6 then .fp32 else .bf16

/-- The number of the first element of a 128-byte line counted from the start of its range on its MEM (R104, R361). -/
def lineElem (b : Buf) (o esize : Nat) : Nat := (granuleRank b o * 4096 + o % 4096) / esize

/-- One element as E4M3 or E2M1 stores it and serves it again (R104): always saturating. -/
def codecElem (stored served : FFmt) (dit : Bool) (dph idx bits : Nat) : Nat :=
  let md : RMode := if dit then .dit (ditherNum (idx % 32) (ditherPhase dph (idx / 32))) else .rne
  let code :=
    match stored, served.decode bits with
    | .e4m3, .nan _ => 0x7F
    | f, x => (f.deliver md true x.exact).1
  (served.deliver .rne false (stored.decode code).exact).1

/-- The served elements of one line after its write-back and a later fill. -/
def codecLine (b : Buf) (first : Nat) (xs : List Nat) : List Nat :=
  let served := b.served
  let dit := bitAt b.fmt.toNat 7
  let dph := bitsAt b.fmt.toNat 8 4
  match b.fmt.toNat % 8 with
  | 1 =>
    let w := bitsAt b.fmt.toNat 3 3 + 2
    let block : Nat → List Nat → List Nat := fun k ys =>
      let ph := if dit then some (ditherPhase dph k) else none
      let slot := (bfpEncode w (served == .bf16) ph (ys.map served.decode)).1
      (List.range ys.length).map (fun i => (served.deliver .rne false (bfpDecodeElem w slot i).exact).1)
    if xs.length ≤ 32 then block (first / 32) xs
    else block (first / 32) (xs.take 32) ++ block (first / 32 + 1) (xs.drop 32)
  | 2 => xs.zipIdx.map (fun p => codecElem .e4m3 served dit dph (first + p.2) p.1)
  | 3 => xs.zipIdx.map (fun p => codecElem .e2m1 served dit dph (first + p.2) p.1)
  | _ => xs

/-- A coded line written back to HBM or tier 2 (R104): what any later access finds is the encoded and decoded data. -/
def State.writeBackLine (s : State) (line : Nat) : State :=
  let a := line * 128
  let bid := a / 2 ^ 40
  let b := s.buf bid
  let t := { s with coded := s.coded.filter (fun l => l != line) }
  if b.coded then
    let es := b.served.width / 8
    let xs := (List.range (128 / es)).map (fun i => ofBytes (Memory.readN s.mem (a + i * es) es))
    let ys := codecLine b (lineElem b (a % 2 ^ 40) es) xs
    { t with mem := Memory.writeBytes t.mem a (ys.flatMap (fun y => toBytes y es)) }
  else t

end Sys2Proof.Machine
end

