-- ==== Sys2Proof/Machine/Operands.lean ====
section
/-! DEFINITION. Operand forms: what a move reads and writes (R112-R118, R175), the operand ports an operation sees (R144), and the
form word, tile shape and elements of the vector units (R170-R173, R180, R181). -/

namespace Sys2Proof.Machine

/-! ## Registers and ports -/

/-- VCONF.NV: values 129-255 act as 128 (R174). -/
def Ctx.nv (x : Ctx) : Nat := min (fld x.vconf 0 8) 128
/-- VCONF.RB. -/
def Ctx.rb (x : Ctx) : Nat := fld x.vconf 8 7
/-- VCONF.RS. -/
def Ctx.rs (x : Ctx) : Nat := fld x.vconf 15 7

/-- The physical register an architectural name resolves to with RRB as it stands (R175). -/
def Ctx.physReg (x : Ctx) (r : Nat) : Nat :=
  let rs := x.rs
  let rrb := if rs = 0 then 0 else x.rrb.toNat % rs
  if 0 < rs ∧ x.rb ≤ r ∧ r < x.rb + rs then x.rb + (r - x.rb + rrb) % rs else r

/-- Whether a name is configured (R175). -/
def Ctx.vregOk (x : Ctx) (r : Nat) : Bool := decide (r < x.nv) && decide (x.physReg r < x.nv)

/-- A predicate's value (R141): p0 is 1. -/
def Ctx.pred (x : Ctx) (i : Nat) : Bool := if i = 0 then true else x.prf.getLsbD i

/-- Whether a guard holds (R110). -/
def Ctx.guardOn (x : Ctx) (g : Guard) : Bool := x.pred g.pred.toNat != g.inv

/-- A mask register. -/
def Ctx.maskReg (x : Ctx) (i : Nat) : Mask := x.mrf.get i 0

/-- The running overlay of a core. -/
def Core.overlay (c : Core) : Option Overlay := match c.running with
  | some i => c.overlays[i]?
  | none => none

/-- The element width a broadcast into a port takes from the unit's form word, or 64 for every other destination (R116). -/
def Ctx.bcastWidth (x : Ctx) (d : Dst) : Nat :=
  let ofForm : FU → Nat := fun fu =>
    match etypeOf (fld (x.sport.get (portKey fu 3) 0) 0 4) with
    | .bfp => 64
    | t => t.width
  let unit : FU → Nat := fun fu =>
    match fu with
    | .vaa => ofForm .vaa
    | .vab => ofForm .vab
    | .vxu => ofForm .vxu
    | .sfn => ofForm .sfn
    | _ => 64
  match d with
  | .port fu _ => unit fu
  | .trig fu _ => unit fu
  | _ => 64

/-- What reading a source finds. -/
inductive Fetch where
  | got (v : MVal)
  | wait (slot : Nat)
  | bad (code : Nat) (detail : Word) (h : Handle)
  deriving DecidableEq, Repr

/-- A scalar sill slot read (R225): PENDING freezes, POISONED raises POISON, an unresolved store raises STORE_UNRESOLVED. -/
def fetchSlot (st : SlotSt) (slot : Nat) (v : MVal) (zero : MVal) : Fetch :=
  match st with
  | .empty => .got zero
  | .pending => .wait slot
  | .full => .got v
  | .poisoned => .bad cPOISON (BitVec.ofNat 64 slot) 0
  | .unresolved off h => .bad cSTORE_UNRESOLVED (BitVec.ofNat 64 off) h

/-- An empty scalar slot. -/
def SillS.empty : SillS := ⟨0, .empty, 0⟩
/-- An empty vector slot. -/
def SillV.empty : SillV := ⟨0, .empty, 0⟩

/-- The value of a source as it stands before the bundle (R112, R114-R116, R118). -/
def State.fetch (s : State) (core : Nat) (b : Bundle) (d : Dst) (src : Src) : Fetch :=
  let c := s.core core
  let x := c.ctx
  match src with
  | .srf r => .got (.s (x.srf.get r.toNat 0))
  | .prf r => .got (.s (b2w (x.pred r.toNat)))
  | .crf r => .got (.k (x.crf.get r.toNat 0))
  | .vrf r =>
    if x.vregOk r.toNat then .got (.v (x.vrf.get (x.physReg r.toNat) 0))
    else .bad cUNCONF_VREG (r.setWidth 64) 0
  | .mrf r => .got (.v ((x.maskReg r.toNat).setWidth 8192))
  | .sill l =>
    let e := x.sillS.get l.toNat SillS.empty
    fetchSlot e.st l.toNat (.s e.val) (.s 0)
  | .vsill l =>
    let e := x.sillV.get l.toNat SillV.empty
    fetchSlot e.st (32 + l.toNat) (.v e.val) (.v 0)
  | .win fu port depth =>
    let k := winKey fu port.toNat
    match fu, port.toNat with
    | .sys, 2 => .got (.k ((x.kwin.get k (Win.zero 0)).at depth.toNat))
    | .vaa, _ => .got (.v ((x.vwin.get k (Win.zero 0)).at depth.toNat))
    | .vab, _ => .got (.v ((x.vwin.get k (Win.zero 0)).at depth.toNat))
    | .vls, _ => .got (.v ((x.vwin.get k (Win.zero 0)).at depth.toNat))
    | .sfn, _ => .got (.v ((x.vwin.get k (Win.zero 0)).at depth.toNat))
    | .vxu, 0 => .got (.v ((x.vwin.get k (Win.zero 0)).at depth.toNat))
    | .lac, 0 => .got (.v ((x.vwin.get k (Win.zero 0)).at depth.toNat))
    | _, _ => .got (.s ((x.swin.get k (Win.zero 0)).at depth.toNat))
  | .imm v => .got (.s (v.signExtend 64))
  | .bcast r =>
    let w := x.bcastWidth d
    .got (.v (BitVec.ofNat 8192 (replicateBits (x.srf.get r.toNat 0).toNat w (8192 / w))))
  | .limm => .got (.s (b.limm.getD 0))
  | .coreIdx => .got (.s (BitVec.ofNat 64 x.cidx))
  | .crewSize => .got (.s (BitVec.ofNat 64 x.csize))
  | .chiplet => .got (.s (BitVec.ofNat 64 (siteOf core)))
  | .argBase => .got (.s x.argBase)
  | .cycle => .got (.s (BitVec.ofNat 64 (s.cycle (siteOf core))))
  | .tick => .got (.s (BitVec.ofNat 64 s.tick))
  | .const i => .got (.s (match c.overlay with | some o => o.consts.get i.toNat 0 | none => 0))

/-- A value as a scalar: a handle gives its opaque value (R118, R143). -/
def MVal.scalar : MVal → Word
  | .s w => w
  | .k h => h
  | .v x => x.setWidth 64

/-- A value as a vector. -/
def MVal.vector : MVal → VReg
  | .v x => x
  | .s w => w.setWidth 8192
  | .k h => h.setWidth 8192

/-- A value as a handle: only a K source carries a capability (R118). DEDUCED (log 5). -/
def MVal.handle : MVal → Handle
  | .k h => h
  | _ => 0

/-- The kind of an operand port (R119). -/
inductive PKind where
  | s | v | k
  deriving DecidableEq, Repr

/-- The kind of a port, or none where R119 lists no such port. Port A (selector 0) also takes the triggers. -/
def portKind (fu : FU) (sel : Nat) : Option PKind :=
  match fu, sel with
  | .ala, 0 => some .s | .ala, 1 => some .s | .ala, 4 => some .s
  | .alb, 0 => some .s | .alb, 1 => some .s | .alb, 4 => some .s
  | .mul, 0 => some .s | .mul, 1 => some .s
  | .bru, 0 => some .s | .bru, 1 => some .s | .bru, 2 => some .s
  | .lsu, 0 => some .s | .lsu, 1 => some .s | .lsu, 5 => some .k
  | .syn, 0 => some .s | .syn, 1 => some .s | .syn, 2 => some .s | .syn, 5 => some .k
  | .cmd, 0 => some .s | .cmd, 1 => some .s | .cmd, 2 => some .s | .cmd, 3 => some .s | .cmd, 4 => some .s
  | .cmd, 5 => some .k | .cmd, 6 => some .k
  | .upd, 0 => some .s | .upd, 1 => some .s | .upd, 3 => some .s | .upd, 5 => some .k | .upd, 6 => some .v
  | .upd, 7 => some .v
  | .sys, 0 => some .s | .sys, 1 => some .s | .sys, 5 => some .k
  | .str, 0 => some .s | .str, 1 => some .s | .str, 2 => some .s | .str, 3 => some .s | .str, 5 => some .k
  | .vaa, 0 => some .v | .vaa, 1 => some .v | .vaa, 2 => some .v | .vaa, 3 => some .s
  | .vab, 0 => some .v | .vab, 1 => some .v | .vab, 2 => some .v | .vab, 3 => some .s
  | .vxu, 0 => some .v | .vxu, 2 => some .v | .vxu, 1 => some .s | .vxu, 3 => some .s
  | .vls, 0 => some .s | .vls, 1 => some .s | .vls, 3 => some .s | .vls, 2 => some .v | .vls, 5 => some .k
  | .sfn, 0 => some .v | .sfn, 3 => some .s
  | .lac, 0 => some .v | .lac, 1 => some .v | .lac, 2 => some .v | .lac, 3 => some .s | .lac, 6 => some .s
  | _, _ => none

/-- The kind of a result port (R119). -/
def resKind (fu : FU) (port : Nat) : Option PKind :=
  match fu, port with
  | .ala, 0 => some .s | .ala, 1 => some .s
  | .alb, 0 => some .s | .alb, 1 => some .s
  | .mul, 0 => some .s
  | .bru, 0 => some .s
  | .lsu, 0 => some .s
  | .syn, 0 => some .s | .syn, 1 => some .s
  | .cmd, 0 => some .s
  | .upd, 0 => some .s
  | .sys, 0 => some .s | .sys, 1 => some .s | .sys, 2 => some .k
  | .str, 0 => some .s | .str, 1 => some .s
  | .vaa, 0 => some .v | .vaa, 3 => some .v
  | .vab, 0 => some .v | .vab, 3 => some .v
  | .vxu, 0 => some .v | .vxu, 1 => some .s
  | .vls, 0 => some .v
  | .sfn, 0 => some .v
  | .lac, 0 => some .v | .lac, 1 => some .s
  | _, _ => none

/-- A value written into an operand port (R144). -/
def Ctx.setPort (x : Ctx) (fu : FU) (sel : Nat) (v : MVal) : Ctx :=
  let k := portKey fu sel
  match portKind fu sel with
  | some .s => { x with sport := x.sport.set k v.scalar }
  | some .v => { x with vport := x.vport.set k v.vector }
  | some .k => { x with kport := x.kport.set k v.handle }
  | none => x

/-- One write of a bundle taken (R112 step 3): a vector register also takes its dirty bit (R176), a predicate bit 0 of its value
and a mask the low 1,024 bits (R115). phys is the register a vector name resolved to before the bundle. -/
def Ctx.write (x : Ctx) (w : BWrite) : Ctx :=
  match w.dst with
  | .srf r => { x with srf := x.srf.set r.toNat w.val.scalar }
  | .prf r => { x with prf := putFld x.prf r.toNat 1 (w.val.scalar.toNat % 2) }
  | .mrf r => { x with mrf := x.mrf.set r.toNat (w.val.vector.setWidth 1024) }
  | .crf r => { x with crf := x.crf.set r.toNat w.val.handle }
  | .vrf _ => { x with vrf := x.vrf.set w.phys w.val.vector, dirty := putFld x.dirty w.phys 1 1 }
  | .port fu sel => x.setPort fu sel.toNat w.val
  | .trig fu _ => x.setPort fu 0 w.val

/-- Every write of a bundle taken together; no two write one place (R120). -/
def Ctx.writes (x : Ctx) : List BWrite → Ctx
  | [] => x
  | w :: ws => (x.write w).writes ws

/-- The operand ports of a unit as they stand (R144). -/
def Ctx.operands (x : Ctx) (fu : FU) : Operands :=
  let sp : Nat → Word := fun i => x.sport.get (portKey fu i) 0
  let vp : Nat → VReg := fun i => x.vport.get (portKey fu i) 0
  let f := sp 3
  { a := sp 0, b := sp 1, c := sp 2, p := sp 4, f := f, x := sp 6, h := x.kport.get (portKey fu 5) 0,
    h1 := x.kport.get (portKey fu 6) 0, va := vp 0, vb := vp 1, vc := vp 2, vx := vp 6, vy := vp 7,
    word := if fu = .cmd then (sp 4).setWidth 256 <<< 192 ||| (sp 3).setWidth 256 <<< 128 ||| (sp 2).setWidth 256 <<< 64
        ||| (sp 1).setWidth 256 else 0,
    mask := x.maskReg (if fu = .upd then fld f 13 3 else fld f 8 3), vshape := x.vshape, vctl := x.vctl }

/-! ## Forms, shapes and elements -/

/-- A form word (R180). -/
structure Form where
  type : EType
  code : Nat
  rnd : Nat
  sat : Bool
  men : Bool
  stype : EType
  cbw : Nat
  deriving DecidableEq, Repr

/-- The form word held in a port F. -/
def formOf (f : Word) : Form :=
  { type := etypeOf (fld f 0 4), code := fld f 0 4, rnd := fld f 4 3, sat := bitAt f.toNat 7, men := bitAt f.toNat 11,
    stype := etypeOf (fld f 12 4), cbw := fld f 16 3 }

/-- Rows of VSHAPE (R170). -/
def shapeRows (v : BitVec 13) : Nat := fld v 0 6 + 1
/-- Columns of VSHAPE. -/
def shapeCols (v : BitVec 13) : Nat := fld v 6 7 + 1
/-- Elements of the tile (R171). -/
def shapeN (v : BitVec 13) : Nat := shapeRows v * shapeCols v

/-- Element q of width b of a register (R171). -/
def elem (v : VReg) (b q : Nat) : Nat := bitsAt v.toNat (q * b) b

/-- A register of elements of width b, lowest first; bits above them are 0. -/
def tileOf (b : Nat) (xs : List Nat) : VReg := BitVec.ofNat 8192 (packBits b xs)

/-- A mask as a vector in the layout of R115. -/
def maskVec (bits : List Bool) : VReg := BitVec.ofNat 8192 (packBits 1 (bits.map b2n))

/-- What a vector operation reads (R173): its ports, form, shape, selected mask, and VCTL's fields. -/
structure VecIn where
  a : VReg
  b : VReg
  c : VReg
  form : Form
  shape : BitVec 13
  mask : Mask
  drm : Nat
  dph : Nat
  f8sat : Bool
  ten : BitVec 5
  sb : Word
  deriving DecidableEq, Repr

/-- The inputs of a vector operation from its operands. -/
def vecIn (o : Operands) : VecIn :=
  { a := o.va, b := o.vb, c := o.vc, form := formOf o.f, shape := o.vshape, mask := o.mask, drm := fld o.vctl 0 3,
    dph := fld o.vctl 4 4, f8sat := bitAt o.vctl.toNat 8, ten := BitVec.ofNat 5 (fld o.vctl 9 5), sb := o.b }

/-- Element count. -/
def VecIn.n (v : VecIn) : Nat := shapeN v.shape
/-- Rows. -/
def VecIn.rows (v : VecIn) : Nat := shapeRows v.shape
/-- Columns. -/
def VecIn.cols (v : VecIn) : Nat := shapeCols v.shape
/-- Whether element q is selected (R181); a mask register has no bit for an element from 1,024 on. DEDUCED (log 71). -/
def VecIn.sel (v : VecIn) (q : Nat) : Bool := !v.form.men || v.mask.getLsbD q

/-- The effective SAT of a result type (R80): the FP8 default counts for FP8 results only. -/
def VecIn.satFor (v : VecIn) (t : EType) : Bool :=
  match t with
  | .fp .e5m2 => v.form.sat || v.f8sat
  | .fp .e4m3 => v.form.sat || v.f8sat
  | _ => v.form.sat

/-- The rounding mode of the form for an operation without dither (R86). -/
def VecIn.mode (v : VecIn) : RMode := modeOf v.form.rnd v.drm false 0 0

/-- Whether a tile of width b fits (R172). -/
def VecIn.fits (v : VecIn) (b : Nat) : Bool := decide (v.n * b ≤ 8192)

/-- The element-wise pattern of R181 over a tile of width b: per element its bits and the conditions it raises. -/
def VecIn.map (v : VecIn) (b : Nat) (f : Nat → Nat × Flags) : List (Nat × Flags) :=
  (List.range v.n).map (fun q => if v.sel q then f q else (elem v.a b q, 0))

/-- What a vector operation writes: its results and the conditions of each result position in order. -/
structure VecOut where
  writes : List (Nat × ResVal)
  conds : List Flags
  deriving DecidableEq, Repr

/-- A whole tile of results into port D. -/
def tileOut (b : Nat) (r : List (Nat × Flags)) : VecOut :=
  { writes := [(0, .v (tileOf b (r.map (fun p => p.1))))], conds := r.map (fun p => p.2) }

/-- A tile into port D with no conditions. -/
def plainOut (b : Nat) (r : List Nat) : VecOut := { writes := [(0, .v (tileOf b r))], conds := [] }

end Sys2Proof.Machine
end

