-- ==== Sys2Proof/Machine/Flags.lean ====
section
/-! DEFINITION. Flag computations: the conditions of an operation gathered for VFLAGS and ARITH (R89, R179), and the status bits
that CSR writes change under their access codes (R5, R153). -/

namespace Sys2Proof.Machine

/-- The OR of the conditions of every result position (R89). -/
def orFlags : List Flags → Flags
  | [] => 0
  | f :: fs => f ||| orFlags fs

/-- The first position, counted from i, that raised an enabled condition (R179). -/
def lowestRaised (ten : BitVec 5) : Nat → List Flags → Nat
  | _, [] => 0
  | i, f :: fs => if f &&& ten ≠ 0 then i else lowestRaised ten (i + 1) fs

/-- A vector operation's results put in flight with the conditions that R179 ORs into VFLAGS when they are written. -/
def State.emitVec (s : State) (fu : FU) (lat : Nat) (o : VecOut) (ten : BitVec 5) (macC : Bool) : State :=
  s.emitFp fu lat o.writes (orFlags o.conds) ten (lowestRaised ten 0 o.conds) macC

/-- One in-flight operation written (R145, R179, R187): its windows shift, its conditions go into VFLAGS, VFMAC's tile goes to
port C unless the bundle of this clock wrote that port, and an enabled condition leaves ARITH pending. Of two operations that
raise ARITH at one boundary the earlier-issued one is described (R200). -/
def Core.land (c : Core) (e : InFlight) (movedC : Bool) : Core :=
  let x := c.ctx.pushResults e.fu e.writes
  let x := { x with vflags := x.vflags ||| e.raised }
  let x :=
    if e.macC && !movedC then
      match e.writes with
      | (_, .v t) :: _ => { x with vport := x.vport.set (portKey e.fu 2) t }
      | _ => x
    else x
  let hit := decide (e.raised &&& e.enabled ≠ 0)
  let mine : Arith := { fu := e.fu.id, bidx := e.bidx, slot := e.slot, raised := e.raised, lowest := e.lowest, seq := e.seq }
  let pend := if hit then
      (match x.arith with
       | some a => if a.seq < e.seq then some a else some mine
       | none => some mine)
    else x.arith
  { c with
    ctx := { x with arith := pend }
    inflight := c.inflight.filter (fun y => y.seq != e.seq) }

/-- The three CSR writes (R153). -/
inductive CsrOp where
  | read | write | set | clear
  deriving DecidableEq, Repr

/-- The value a CSR write gives an RW field (R153). -/
def CsrOp.value {w : Nat} (op : CsrOp) (old a : BitVec w) : BitVec w :=
  match op with
  | .read => old
  | .write => a
  | .set => old ||| a
  | .clear => old &&& ~~~a

/-- The value a CSR write leaves in W1C bits: each of the three writes clears exactly the bits that are 1 in A (R153). -/
def CsrOp.w1c {w : Nat} (op : CsrOp) (old a : BitVec w) : BitVec w :=
  match op with
  | .read => old
  | _ => old &&& ~~~a

end Sys2Proof.Machine
end

