-- ==== Sys2Proof/Machine/Branch.lean ====
section
/-! DEFINITION. The branch unit (R163-R167) and the end of a NOPW pause. -/

namespace Sys2Proof.Machine

/-- The context with the next bundle to issue replaced. -/
def Ctx.goto (x : Ctx) (target : Word) : Ctx := { x with pc := target }

/-- The context of the turn's strand changed. -/
def State.modTurnCtx (s : State) (f : Ctx → Ctx) : State := s.modCtx s.turn.core f

/-- JMP (R164). -/
def execJmp (s : State) : Host.Outcome State Fault Refusal :=
  .next (s.modTurnCtx (fun x => x.goto s.turn.ops.a))

/-- JMPR (R164): relative to this bundle. -/
def execJmpr (s : State) : Host.Outcome State Fault Refusal :=
  .next (s.modTurnCtx (fun x => x.goto (s.turn.bidx + s.turn.ops.a)))

/-- CALL (R164): the return index goes to BRU.D0 with latency 1. -/
def execCall (s : State) : Host.Outcome State Fault Refusal :=
  .next ((s.modTurnCtx (fun x => x.goto s.turn.ops.a)).emit .bru 1 [(0, .s (s.turn.bidx + 1))])

/-- RET (R164): exactly as JMP. -/
def execRet (s : State) : Host.Outcome State Fault Refusal :=
  .next (s.modTurnCtx (fun x => x.goto s.turn.ops.a))

/-- The stage predicates p8-p15 replaced, bit i of v being p(8 + i). DEDUCED (log 16). -/
def Ctx.setStages (x : Ctx) (v : Nat) : Ctx := { x with prf := putFld x.prf 8 8 v }

/-- The loop set up by BRU.LOOP in the bundle at index n (R166). DEDUCED (log 16). -/
def Ctx.startLoop (x : Ctx) (n : Word) (o : Operands) : Ctx :=
  let trips := fld o.a 0 32
  let st := fld o.b 0 4
  let stages := min (max st 1) 8
  let y := if trips = 0 then { x with lc := 0, esc := 0 }.setStages 0
    else { x with lc := BitVec.ofNat 32 (trips - 1), esc := BitVec.ofNat 3 (stages - 1) }.setStages 1
  let z := { y with lhead := (n + 1).setWidth 13 }
  if o.c.getLsbD 63 then { z with rrb := if x.rs = 0 then 0 else BitVec.ofNat 7 (fld o.c 0 7 % x.rs) } else z

/-- LOOP (R166). DEDUCED (log 16). -/
def execLoop (s : State) : Host.Outcome State Fault Refusal :=
  .next (s.modTurnCtx (fun x => x.startLoop s.turn.bidx s.turn.ops))

/-- The loop-end step after the writes of the loop-end bundle at index n (R167). -/
def Ctx.loopEnd (x : Ctx) (n : Word) : Ctx :=
  let go : Bool := decide (0 < x.lc.toNat) || decide (0 < x.esc.toNat)
  let y := x.setStages (fld x.prf 8 7 * 2 + b2n (decide (0 < x.lc.toNat)))
  let z := if 0 < x.lc.toNat then { y with lc := x.lc - 1 }
    else if 0 < x.esc.toNat then { y with esc := x.esc - 1 } else y
  let w := { z with rrb := if x.rs = 0 then 0 else BitVec.ofNat 7 ((x.rrb.toNat + 128 * x.rs - 1) % x.rs) }
  w.goto (if go then x.lhead.setWidth 64 else n + 1)

/-- The trap that BRU.TRAP raises (R56, R165). -/
def swTrap (s : State) : TrapInfo :=
  { cause := cSWTRAP, fu := FU.bru.id, info0 := s.turn.bidx, info1 := s.turn.ops.a &&& 0xFFFF, info2 := 0,
    ret := (s.turn.bidx + 1).setWidth 13 }

/-- TRAP's check: with no handler, or inside one, it is a fault and its bundle has no effect (R54, R60). -/
def checkTrap (s : State) : Check :=
  match s.tctx.trapOr (swTrap s) s.turn.slot s.turn.bidx with
  | .fault f => .fault f
  | _ => .ok

/-- TRAP (R58, R165): issue stops and the trap is entered after the drain. -/
def execTrap (s : State) : Host.Outcome State Fault Refusal :=
  guarded checkTrap (fun t => t.stopIssue t.turn.core (.trap (swTrap t))) s

/-- The stream closed: its queue and the fetches in flight are discarded and its descriptor is cleared (R245). -/
def Ctx.closeStream (x : Ctx) : Ctx :=
  { x with
    stream := { Stream.none with epoch := x.stream.epoch + 1 }
    loads := x.loads.filter (fun l => match l.dst with | .stream _ _ => false | _ => true) }

/-- A running crew whose strands have all executed HALT starts draining, and so does its node (R39). A grid node stays RUNNING
(R345). -/
def State.crewHalted (s : State) (crew : Nat) : State :=
  let c := s.crew crew
  if c.st = .running ∧ c.cores.all (fun n => (s.core n).mode == .halted) then
    let n := s.node c.node
    let t := s.setCrew crew { c with st := .draining }
    if n.grid ∨ c.rcb = 0 then t else t.setNode c.node { n with st := .draining }
  else s

/-- HALT (R165): the strand ends after this bundle, its stream closes (R244), and its long operations advance in every clock from now
on (R183); a boot-mailbox strand's STATE becomes 3
(R48). -/
def execHalt (s : State) : Host.Outcome State Fault Refusal :=
  let t := s.modCore s.turn.core (fun c =>
    { c with mode := .halted, ctx := c.ctx.closeStream.unparkLongs true, mbState := if c.mbStrand then 3 else c.mbState })
  .next (t.crewHalted s.tctx.crew)

/-- NOPW (R165): issue pauses for A[15:0] clocks. -/
def execNopw (s : State) : Host.Outcome State Fault Refusal :=
  .next (s.modCore s.turn.core (fun c =>
    let n := fld s.turn.ops.a 0 16
    let m := match c.mode with
      | .run => Mode.pause
      | .hold => Mode.pause
      | x => x
    if n = 0 then c else { c with mode := m, ctx := { c.ctx with nopw := n } }))

/-- The end of a NOPW pause (R165): the next bundle issues in the next clock. -/
def execNopwPauseEnd (s : State) : Host.Outcome State Fault Refusal :=
  .next (s.modCore s.turn.core (fun c =>
    match c.mode with
    | .pause => { c with mode := .run, ctx := { c.ctx with nopw := 0 } }
    | _ => c))

end Sys2Proof.Machine
end

