-- ==== Sys2Proof/Machine/Rcb.lean ====
section
/-! DEFINITION. Region control blocks: inheritance and budgets (R23-R26, R358); the allocator, pinning and reclaim (R251-R261). -/

namespace Sys2Proof.Machine

/-! ## Inheritance (R24) -/

/-- The nearest RCB of a path that sets a field. -/
def State.setter (s : State) (field : Nat) : List Nat → Nat
  | [] => 0
  | i :: is => if (s.rcb i).inherits field then s.setter field is else i

/-- The fault domain of an RCB: the nearest that sets POLICY (R62). -/
def State.faultDomain (s : State) (i : Nat) : Nat := s.setter 2 (s.path i)
/-- The effective ageing interval in µs (R24). -/
def State.effAge (s : State) (i : Nat) : Nat := (s.rcb (s.setter 0 (s.path i))).age.toNat
/-- The level-1 RCB of a partition. -/
def partRcb (p : Nat) : Nat := 1 + p
/-- The ceiling of a partition (R24). -/
def State.ceilOf (s : State) (p : Nat) : Nat := (s.rcb (partRcb p)).ceil.toNat
/-- An RCB's own priority, clamped to its partition's ceiling (R24); the root has no ceiling. -/
def State.ownPrio (s : State) (i : Nat) : Nat :=
  let r := s.rcb i
  if r.level = 0 then r.prio.toNat else min r.prio.toNat (s.ceilOf r.part.toNat)
/-- The effective priority of an RCB (R24): that of the nearest RCB of its path that sets PRIO. -/
def State.effPrio (s : State) (i : Nat) : Nat := s.ownPrio (s.setter 3 (s.path i))

/-- Whether every RCB of a path that sets BUDGET has room for n extents (R25). -/
def State.budgetRoom (s : State) (n : Nat) (path : List Nat) : Bool :=
  path.all (fun i => (s.rcb i).inherits 4 || decide ((s.rcb i).used.toNat + n ≤ (s.rcb i).budget.toNat))

/-- Extents counted, or released, at RCBs (R25, R261). -/
def State.countExtents (s : State) (ids : List Nat) (f : BitVec 32 → BitVec 32) : State :=
  ids.foldl (fun t i => t.setRcb i { t.rcb i with used := f (t.rcb i).used }) s

/-- Whether every RCB of a path that sets BINQ has room for one more bin (R25, R336); a unit is 64 bin entries (R358). -/
def State.binRoom (s : State) (path : List Nat) : Bool :=
  path.all (fun i => (s.rcb i).inherits 1 || decide ((s.rcb i).binused.toNat + 1 ≤ (s.rcb i).binq.toNat * 64))

/-! ## Pinning (R255) -/

/-- The pinned entries of a chiplet's handle cache. -/
def State.pinCount (s : State) (site : Nat) : Nat :=
  (s.pins.filter (fun p => p.1 / 2 ^ 24 == site)).length

/-- A crew pins an entry on its chiplet; a copy of an earlier buffer of the id, or of the id while it was free, gives way to the entry
(R255, R256). -/
def State.pin (s : State) (site crew bid : Nat) : State :=
  if windowBid ≤ bid then s
  else
    let k := site * 2 ^ 24 + bid
    match s.pins.find k with
    | some p =>
      let copy := if p.copy.gen = (s.buf bid).gen ∧ p.copy.state ≠ 0 then p.copy else s.buf bid
      { s with pins := s.pins.set k { crews := if p.crews.contains crew then p.crews else crew :: p.crews, copy := copy } }
    | none => { s with pins := s.pins.set k { crews := [crew], copy := s.buf bid } }

/-- The entries that a crew would pin and that are not pinned yet. -/
def State.newPins (s : State) (site : Nat) (bids : List Nat) : List Nat :=
  bids.eraseDups.filter (fun b => decide (b < windowBid) && (s.pins.find (site * 2 ^ 24 + b)).isNone)

/-- Whether the handle cache has room for a crew's entries. -/
def State.pinRoom (s : State) (site : Nat) (bids : List Nat) : Bool :=
  decide (s.pinCount site + (s.newPins site bids).length ≤ 4096)

/-- A crew that leaves a chiplet unpins what it pinned. -/
def State.unpinCrew (s : State) (site crew : Nat) : State :=
  { s with
    pins := (s.pins.map (fun p =>
        if p.1 / 2 ^ 24 = site then (p.1, { p.2 with crews := p.2.crews.filter (fun c => c != crew) }) else p)).filter
      (fun p => !p.2.crews.isEmpty) }

/-! ## The allocator (R259) -/

/-- The first number from k on that is no key of a map. -/
def firstGap {α : Type} : NMap α → Nat → Nat
  | [], k => k
  | (i, _) :: r, k => if i < k then firstGap r k else if i = k then firstGap r (k + 1) else k

/-- Whether ids never used since package reset remain (R261). -/
def State.freshIds (s : State) : Bool := decide (firstGap s.bufs 0 < windowBid)

/-- The MEMs a new buffer takes extents on. -/
def targetMems (plc : Bool) (pmem : Nat) : List Nat := if plc then [pmem] else List.range 8

/-- The extents of 2 MiB in the HBM4 of a MEM: two stacks of 64 GB, decimal (R3, R14). -/
def hbmExtents : Nat := 2 * 64 * 10 ^ 9 / 2 ^ 21

/-- The extents of a MEM that a failed tier-2 device held: they take no room on any device (R416). -/
def State.lostCount (s : State) (m : Nat) : Nat := (s.exts.filter (fun p => extMem p.1 == m && p.2.st == .lost)).length

/-- The free extents of a MEM: its HBM4 and its tier-2 device (R14, R232). -/
def State.extFree (s : State) (m : Nat) : Nat := hbmExtents + s.tier2.get m 0 + s.lostCount m - s.extUsed.get m 0

/-- Whether a MEM has a free format range register (R361). -/
def State.rangeFree (s : State) (m : Nat) : Bool :=
  (List.range 64).any (fun i => !(s.ranges.get (m * 64 + i) Range.zero).v)

/-- The refused attribute values of R259. -/
def attrRefused (size b : Word) : Bool :=
  decide (size = 0) || decide (size.toNat > 2 ^ 40) || decide (fld b 0 3 > 3) ||
    (decide (fld b 0 3 = 1) && decide (fld b 3 3 = 7)) || decide (fld b 16 2 = 3)

/-- The key slot an ALLOC names: KSLOT, or its partition's default key. -/
def State.keyOf (s : State) (part : Nat) (b : Word) : Nat :=
  if bitAt b.toNat 19 then fld b 20 11 else (s.part part).key.toNat

/-- Whether a partition may use a key slot (R360). -/
def State.keyUsable (s : State) (part k : Nat) : Bool :=
  let x := s.keys.get k Key.zero
  x.valid && x.part.toNat == part

/-- The RCB that OWNER names for a strand of a graph instance: the instance, its job, or its partition. DEDUCED (log 56). -/
def State.ownerRcb (s : State) (rcb : Nat) (b : Word) : Nat :=
  match fld b 16 2 with
  | 0 => rcb
  | 1 => if (s.rcb rcb).level.toNat ≤ 1 then rcb else (s.rcb rcb).parent.toNat
  | _ => if (s.rcb rcb).level = 0 then rcb else partRcb (s.rcb rcb).part.toNat

/-- The allocator's decision (R259): 0, or the reason of a refusal. site is the requester's chiplet, if it has one. -/
def State.allocReason (s : State) (size b : Word) (own part : Nat) (site : Option Nat) : Nat :=
  let plc := bitAt b.toNat 12
  let mems := targetMems plc (fld b 13 3)
  let per := extentsPerMem size.toNat plc
  if attrRefused size b then 6
  else if bitAt b.toNat 19 && !s.keyUsable part (fld b 20 11) then 4
  else if !s.budgetRoom (extentsTotal size.toNat plc) (s.path own) then 1
  else if mems.any (fun m => decide (s.extFree m < per)) then 2
  else if !s.freshIds && s.freedBids.isEmpty then 3
  else if decide (fld b 0 3 ≠ 0) && mems.any (fun m => !s.rangeFree m) then 7
  else
    match site with
    | some x => if s.pinCount x ≥ 4096 then 5 else 0
    | none => 0

/-- The first free format range register of a MEM. -/
def State.freeRange (s : State) (m : Nat) : Nat :=
  ((List.range 64).find? (fun i => !(s.ranges.get (m * 64 + i) Range.zero).v)).getD 0

/-- The format range register of a buffer written on one MEM; where its run of extents begins is the allocator's choice. -/
def State.writeRange (s : State) (bid : Nat) (b : Word) (per m : Nat) : State :=
  let d := s.draw (2 ^ 24)
  let r : Range :=
    { v := true, bid := bid, stf := BitVec.ofNat 3 (fld b 0 3), bw := BitVec.ofNat 3 (fld b 3 3),
      srv := bitAt b.toNat 6, dit := bitAt b.toNat 7, dph := BitVec.ofNat 4 (fld b 8 4), base := BitVec.ofNat 24 d.1,
      next := BitVec.ofNat 24 per }
  { d.2 with ranges := d.2.ranges.set (m * 64 + s.freeRange m) r }

/-- A buffer id: one never used, in an order the allocator chooses, or else the least recently freed (R261). -/
def State.chooseBid (s : State) : Nat × State :=
  if s.freshIds then
    let d := s.draw windowBid
    let k := firstGap s.bufs d.1
    (if k < windowBid then k else firstGap s.bufs 0, d.2)
  else (s.freedBids.headD 0, { s with freedBids := s.freedBids.tail })

/-- The buffer that an accepted request creates (R259): its handle, the extents taken, and the state. -/
def State.allocMake (s : State) (size b : Word) (own part : Nat) : (Handle × Nat) × State :=
  let plc := bitAt b.toNat 12
  let mems := targetMems plc (fld b 13 3)
  let per := extentsPerMem size.toNat plc
  let n := extentsTotal size.toNat plc
  let key := s.keyOf part b
  let c := s.chooseBid
  let bid := c.1
  let gen := (s.buf bid).gen
  let e : Buf :=
    { state := 1, gen := gen, size := size.toNat, latch := 0, own := 0xFFFF, refs := 1, uop := 0, key := BitVec.ofNat 11 key,
      pmem := BitVec.ofNat 3 (fld b 13 3), plc := plc, fmt := BitVec.ofNat 12 (fld b 0 12), orcb := own, hold1 := 0,
      hold2 := 0, hold3 := 0, xmap := 0, charged := s.setters 4 (s.path own) }
  let t := c.2.setBuf bid e
  let t := t.countExtents e.charged (fun u => u + BitVec.ofNat 32 n)
  let t := { t with extUsed := mems.foldl (fun m i => m.set i (m.get i 0 + per)) t.extUsed }
  let t := { t with keys := t.keys.upd key Key.zero (fun k => { k with nbuf := k.nbuf + 1 }) }
  let t := if fld b 0 3 ≠ 0 then mems.foldl (fun u m => u.writeRange bid b per m) t else t
  ((mkHandle bid gen.toNat 15 0, n), t)

/-- A change to an entry made at its shard and applied in every pinned copy of the same buffer, as it stands when the change is
complete (R256). -/
def State.updBuf (s : State) (bid : Nat) (f : Buf → Buf) : State :=
  let b := s.buf bid
  { s.setBuf bid (f b) with
    pins := s.pins.map (fun p =>
      if p.1 % 2 ^ 24 = bid ∧ p.2.copy.gen = b.gen then (p.1, { p.2 with copy := f p.2.copy }) else p) }

/-! ## Reclaim (R261) -/

/-- The start of a reclaim: STATE becomes 2 at the shard, and from there in every pinned copy (R256). -/
def State.reclaim (s : State) (bid : Nat) : State :=
  if (s.buf bid).state = 1 then
    { s.setBuf bid { s.buf bid with state := 2 } with reclaims := s.reclaims ++ [bid] }
  else s

/-- REFS reduced by one at the shard; a reclaim begins when it reaches 0 (R260, R261). -/
def State.dropRef (s : State) (bid : Nat) : State :=
  let b := s.buf bid
  if b.state ≠ 1 ∨ windowBid ≤ bid then s
  else
    let t := s.setBuf bid { b with refs := subSat b.refs 1 }
    if b.refs.toNat ≤ 1 then t.reclaim bid else t

/-- Every context in being: on the cores and among the switched-out gangs. -/
def State.contexts (s : State) : List Ctx :=
  (s.cores.filter (fun p => p.2.mode != .idle)).map (fun p => p.2.ctx) ++ s.saved.flatMap (fun g => g.ctxs.map (fun p => p.2))

/-- Whether a context holds an access to a buffer whose check has passed: a load, a SIGWT that its MEM evaluates, or an update pair that
no shutter has accepted. -/
def Ctx.uses (x : Ctx) (bid : Nat) : Bool :=
  x.loads.any (fun l => hBid l.h == bid) ||
    x.slotOps.any (fun k => match k.wait with
      | .sigwt a _ _ _ => a / 2 ^ 40 == bid
      | _ => false) ||
    x.upd.entries.any (fun e => e.any (fun p => hBid p.h == bid))

/-- Whether a WAITV in issue reads a signal of a buffer (R370). -/
def Wait.uses (w : Wait) (bid : Nat) : Bool :=
  match w.cond with
  | .records rs _ h => hBid h == bid && rs.any (fun r => fld r.1 0 4 == 5)
  | _ => false

/-- Whether a core itself holds an access to a buffer whose check has passed: a store, or a bundle held in issue. -/
def Core.uses (c : Core) (bid : Nat) : Bool :=
  c.wcb.any (fun l => hBid l.h == bid) || c.outs.any (fun l => hBid l.h == bid) || c.replay.any (fun l => hBid l.h == bid) ||
    c.hold.any (fun h => h.bids.contains bid || h.wait.any (fun w => w.uses bid))

/-- The buffers that an entry reaches: those of its handles, and, for COPYX and CHAIN, that of the table entry that XENT or LENT names
(R301, R305). -/
def State.entBids (s : State) (q : QEnt) : List Nat :=
  let at_ : Nat → List Nat := fun i => [hBid ((s.inst (s.crew q.crew).rcb).htab.get i 0)]
  [hBid q.h0, hBid q.h1] ++ (match fld q.word 248 8 with
    | 1 => at_ (fld q.word 13 11)
    | 5 => at_ (fld q.word 37 11)
    | _ => [])

/-- Whether an engine executes an entry that reaches a buffer, or holds an update pair to it. -/
def State.engineUses (s : State) (bid : Nat) (e : Engine) : Bool :=
  let uses : ExecEnt → Bool := fun x =>
    x.pairs.any (fun p => hBid p.h == bid) ||
    (x.main.checked && (s.entBids x.main.ent).contains bid) || x.sub.any (fun a => a.checked && (s.entBids a.ent).contains bid)
  (match e.cur with
   | some x => uses x
   | none => false) || e.saved.any uses

/-- Whether step 2 of a reclaim is over (R261): every pinned copy has applied STATE 2 and no checked access is left. A pair that a
no-spill region holds back is such an access too, until its region's caps let it in. DEDUCED (log 88). -/
def State.reclaimReady (s : State) (bid : Nat) : Bool :=
  !(s.pins.any (fun p => p.1 % 2 ^ 24 == bid && p.2.copy.state == 1)) &&
    !(s.cores.any (fun c => c.2.uses bid)) && !(s.contexts.any (fun x => x.uses bid)) && !(s.engines.any (fun e => s.engineUses bid e.2))

/-- Steps 3 and 4 of a reclaim (R261): no read cache keeps a line of the buffer, so that none of its bytes is ever returned again (R254). -/
def State.reclaimDone (s : State) (bid : Nat) : State :=
  let b := s.buf bid
  let n := extentsTotal b.size b.plc
  let per := extentsPerMem b.size b.plc
  let lo := bufAddr bid 0
  let hi := bufAddr (bid + 1) 0
  let inBuf : Nat → Bool := fun a => decide (lo ≤ a) && decide (a < hi)
  let s := (s.bins.filter (fun p => inBuf p.1)).foldl (fun t p => t.releaseBin p.2) s
  let t := { s with
    bins := s.bins.filter (fun p => !inBuf p.1)
    ranges := s.ranges.map (fun (p : Nat × Range) => if p.2.v && p.2.bid == bid then (p.1, Range.zero) else p)
    reclaims := s.reclaims.filter (fun x => x != bid)
    mem := Memory.clear s.mem lo hi
    poison := s.poison.filter (fun g => !inBuf (g * 64))
    coded := s.coded.filter (fun l => !inBuf (l * 128))
    exts := s.exts.filter (fun p => p.1 / 2 ^ 23 != bid)
    extUsed := (targetMems b.plc b.pmem.toNat).foldl (fun m i => m.set i (m.get i 0 - per)) s.extUsed
    keys := s.keys.upd b.key.toNat Key.zero (fun k => { k with nbuf := subSat k.nbuf 1 })
    freedBids := s.freedBids ++ [bid]
    regions := s.regions.filter (fun p => p.2.bid != bid) }
  let t := t.countExtents b.charged (fun u => subSat u n)
  let t := { t with cores := t.cores.map (fun (c : Nat × Core) =>
    (c.1, { c.2 with rcache := c.2.rcache.filter (fun l => l.line * 64 / 2 ^ 40 != bid) })) }
  t.setBuf bid { Buf.zero with gen := b.gen + 1 }

/-- Every live buffer of an RCB reclaimed (R261). -/
def State.reclaimOwned (s : State) (rcb : Nat) : State :=
  (s.bufs.filter (fun p => p.2.state == 1 && p.2.orcb == rcb)).foldl (fun t p => t.reclaim p.1) s

end Sys2Proof.Machine
end

