-- ==== Sys2Proof/Machine/Sys.lean ====
section
/-! DEFINITION. The SYS unit: system registers (R149-R154, R170, R174, R177, R178, R184, R203), HLD, TRET, YIELD, DTRD, DIAG
(R155-R159) and the buffer operations ALLOC, FREE, RETAIN, HAND and HINFO (R259-R263). -/

namespace Sys2Proof.Machine

/-! ## System registers -/

/-- One half of PIDX (R184): the park bit's place is 31 above the half's base. -/
def pidxHalf (o : Option LongOp) : Nat :=
  match o with
  | some l => if l.parked then 2 ^ 31 + l.dsel.toNat * 2 ^ 16 + l.adv % 2 ^ 11 else 0
  | none => 0

/-- PIDX (R184). -/
def Ctx.pidx (x : Ctx) : Word := BitVec.ofNat 64 (pidxHalf x.vlsLong * 2 ^ 32 + pidxHalf x.vxuLong)

/-- The OR of one flag over an accumulator's 64 lanes (R203): flag bit 0 is I, 1 is O, 2 is N. -/
def Ctx.laneSum (x : Ctx) (k bit : Nat) : Bool :=
  x.lflags.any (fun p => p.1 / 64 == k && p.2.getLsbD bit)

/-- XWINk (R203). -/
def Ctx.xwin (x : Ctx) (k : Nat) : Word :=
  BitVec.ofNat 64 (b2n (x.laneSum k 2) * 2 ^ 18 + b2n (x.laneSum k 1) * 2 ^ 17 + b2n (x.laneSum k 0) * 2 ^ 16
    + (x.xbase.get k 0).toNat)

/-- TSTAT (R57). -/
def Ctx.tstat (x : Ctx) : Word :=
  BitVec.ofNat 64 (b2n x.inTrap * 2 ^ 31 + b2n x.tout * 2 ^ 30 + x.tret.toNat)

/-- A system register's value (R149); an unlisted number reads 0. -/
def State.csrRead (s : State) (core n : Nat) : Word :=
  let x := (s.core core).ctx
  match n with
  | 0x000 => x.vshape.setWidth 64
  | 0x001 => x.vconf.setWidth 64
  | 0x002 => x.vctl.setWidth 64
  | 0x003 => x.vflags.setWidth 64
  | 0x004 => x.pidx
  | 0x010 => x.lc.setWidth 64
  | 0x011 => x.esc.setWidth 64
  | 0x012 => x.rrb.setWidth 64
  | 0x013 => x.lhead.setWidth 64
  | 0x020 => x.tvec.setWidth 64
  | 0x021 => BitVec.ofNat 64 (x.tcFu.toNat * 2 ^ 8 + x.tcCode.toNat)
  | 0x022 => x.tinfo0
  | 0x023 => x.tinfo1
  | 0x024 => x.tinfo2
  | 0x025 => x.tstat
  | 0x030 => BitVec.ofNat 64 (x.htbTable.toNat * 2 ^ 16 + x.htbNent.toNat)
  | 0x031 => BitVec.ofNat 64 (x.argEnt.toNat * 2 ^ 48 + x.argOff.toNat)
  | 0x032 => x.crewId.setWidth 64
  | 0x033 => x.nodeId.setWidth 64
  | 0x034 => BitVec.ofNat 64 (x.gridY.toNat * 2 ^ 16 + x.gridX.toNat)
  | 0x040 => BitVec.ofNat 64 (s.cycle (siteOf core))
  | 0x041 => BitVec.ofNat 64 s.tick
  | 0x050 => x.ldc.setWidth 64
  | 0x051 => x.stc.setWidth 64
  | 0x052 => x.cpc.setWidth 64
  | 0x053 => x.tlc.setWidth 64
  | 0x054 => x.upc.setWidth 64
  | 0x055 => x.tags
  | 0x060 => if s.coreCls core = .vec then x.xwin 0 else 0
  | 0x061 => if s.coreCls core = .vec then x.xwin 1 else 0
  | 0x062 => if s.coreCls core = .vec then x.xwin 2 else 0
  | 0x063 => if s.coreCls core = .vec then x.xwin 3 else 0
  | _ => 0

/-- A system register after a CSR write, field by field under the Access codes (R5, R149, R153): op says which of the three
writes it is, a its port A. A long operation whose PARK bit is cleared is discarded (R184). -/
def Ctx.csrWrite (x : Ctx) (n : Nat) (op : CsrOp) (a : Word) : Ctx :=
  match n with
  | 0x000 => { x with vshape := op.value x.vshape (a.setWidth 13) }
  | 0x001 => { x with vconf := op.value x.vconf (a.setWidth 22) }
  | 0x002 => { x with vctl := op.value x.vctl (a.setWidth 15) &&& 0x7FF7 }
  | 0x003 => { x with vflags := op.w1c x.vflags (a.setWidth 5) }
  | 0x004 =>
    let drop : Nat → Option LongOp → Option LongOp := fun bit o =>
      match o with
      | some l => if l.parked && a.getLsbD bit then none else some l
      | none => none
    { x with vlsLong := drop 63 x.vlsLong, vxuLong := drop 31 x.vxuLong }
  | 0x010 => { x with lc := op.value x.lc (a.setWidth 32) }
  | 0x011 => { x with esc := op.value x.esc (a.setWidth 3) }
  | 0x012 => { x with rrb := op.value x.rrb (a.setWidth 7) }
  | 0x013 => { x with lhead := op.value x.lhead (a.setWidth 13) }
  | 0x020 => { x with tvec := op.value x.tvec (a.setWidth 13) }
  | 0x025 => { x with tret := op.value x.tret (a.setWidth 13), tout := x.tout && !a.getLsbD 30 }
  | 0x055 => { x with tags := op.w1c x.tags a }
  | 0x060 => { x with xbase := x.xbase.set 0 (op.value (x.xbase.get 0 0) (a.setWidth 13)), lacDirty := x.lacDirty ||| 1 }
  | 0x061 => { x with xbase := x.xbase.set 1 (op.value (x.xbase.get 1 0) (a.setWidth 13)), lacDirty := x.lacDirty ||| 2 }
  | 0x062 => { x with xbase := x.xbase.set 2 (op.value (x.xbase.get 2 0) (a.setWidth 13)), lacDirty := x.lacDirty ||| 4 }
  | 0x063 => { x with xbase := x.xbase.set 3 (op.value (x.xbase.get 3 0) (a.setWidth 13)), lacDirty := x.lacDirty ||| 8 }
  | _ => x

/-- The state with a CSR write made: the XWIN registers ignore writes on classes other than VEC (R149). -/
def State.csrPut (s : State) (core n : Nat) (op : CsrOp) (a : Word) : State :=
  match op with
  | .read => s
  | _ => if 0x060 ≤ n ∧ s.coreCls core ≠ .vec then s else s.modCtx core (fun x => x.csrWrite n op a)

/-- A CSR operation in its clock t + 2 (R153, R154): the old value enters SYS.D and the write lands. -/
def csrOp (op : CsrOp) (s : State) : Host.Outcome State Fault Refusal :=
  let n := match op with
    | .read => fld s.turn.ops.a 0 12
    | _ => fld s.turn.ops.b 0 12
  let old := s.csrRead s.turn.core n
  .next ((s.csrPut s.turn.core n op s.turn.ops.a).modCtx s.turn.core (fun x => x.pushResult .sys 0 (.s old)))

/-- CSRR (R153). -/
def execCsrr (s : State) : Host.Outcome State Fault Refusal := csrOp .read s
/-- CSRW (R153). -/
def execCsrw (s : State) : Host.Outcome State Fault Refusal := csrOp .write s
/-- CSRS (R153). -/
def execCsrs (s : State) : Host.Outcome State Fault Refusal := csrOp .set s
/-- CSRC (R153). -/
def execCsrc (s : State) : Host.Outcome State Fault Refusal := csrOp .clear s

/-! ## HLD, TRET, YIELD, DTRD, DIAG -/

/-- The 30 bits of a move slot of the running overlay's bundle (R106), for DETAIL of ILLEGAL_TRANSPORT (R75). -/
def Core.moveBits (c : Core) (bidx : Word) (slot : Nat) : Word :=
  match c.overlay with
  | some o => BitVec.ofNat 64 (fld (o.code.get bidx.toNat 0) (210 - 30 * slot) 30)
  | none => 0

/-- HLD's check (R155). -/
def checkHld (s : State) : Check :=
  if s.turn.ops.a.toNat > s.tctx.htbNent.toNat then s.faultHere cCAP_BOUNDS s.turn.ops.a 0 else .ok

/-- A handle with rights removed: bit i of the mask removes the right in bit 28 + i. -/
def dropRights (h : Handle) (mask : Nat) : Handle := h &&& ~~~(BitVec.ofNat 64 (mask % 16 * 2 ^ 28))

/-- HLD (R155). -/
def execHld (s : State) : Host.Outcome State Fault Refusal :=
  guarded checkHld (fun t =>
    t.emit .sys 4 [(2, .k (dropRights (t.tctx.htab.get t.turn.ops.a.toNat 0) (fld t.turn.ops.b 0 4)))]) s

/-- TRET's check (R59, R156). -/
def checkTret (s : State) : Check :=
  if s.tctx.inTrap then .ok
  else s.faultHere cILLEGAL_TRANSPORT ((s.core s.turn.core).moveBits s.turn.bidx s.turn.slot) 0

/-- TRET (R59, R156): issue stops, and the return follows the drain and the restore. -/
def execTret (s : State) : Host.Outcome State Fault Refusal :=
  guarded checkTret (fun t => t.stopIssue t.turn.core .tret) s

/-- Whether a partition has work ready for a core that it does not hold (R28): a gang switched out of it, or a ready node of the
core's class. -/
def State.wantsCore (s : State) (p core : Nat) : Bool :=
  s.saved.any (fun g => (s.crew g.crew).part == p && (s.crew g.crew).cores.contains core) ||
    s.ready.any (fun r => r.part == p && r.cls == (s.coreCls core).code)

/-- Whether a partition other than p waits for a core; a suspended one has no turn (R28). -/
def State.coreWaiters (s : State) (p core : Nat) : Bool :=
  (s.sharers (fun m => m.core.getLsbD core)).any (fun q => q != p && !(s.part q).suspended && s.wantsCore q core)

/-- Whether a strand trap is being entered on a core (R58): its drain or save, or a TRAP of the same bundle that has still to run. -/
def State.enteringTrap (s : State) (n : Nat) : Bool :=
  (match (s.core n).mode with
    | .drain (.trap _) => true
    | .save _ (.trap _) => true
    | _ => false) ||
    s.agenda.any (fun k => match k with
      | .run u .trap => u.core == n
      | _ => false)

/-- YIELD (R157): 1 when it ends a slice of the time-sliced core, which is then cut, else 0. -/
def execYield (s : State) : Host.Outcome State Fault Refusal :=
  let n := s.turn.core
  let p := s.tctx.part
  match s.slices.find n with
  | some sl =>
    if sl.part = p ∧ !s.partCutting p ∧ !s.enteringTrap n ∧ s.coreWaiters p n then
      .next (({ s with slices := s.slices.set n { sl with ends := min sl.ends s.now } }.emit .sys 2 [(0, .s 1)]).front
        [.run { Turn.zero with item := n } .sliceEnd])
    else .next (s.emit .sys 2 [(0, .s 0)])
  | none => .next (s.emit .sys 2 [(0, .s 0)])

/-- The code of a site's state (R352). -/
def siteStCode : SiteSt → Nat
  | .ready => 0 | .draining => 1 | .fenced => 2 | .calibrating => 3 | .absent => 4

/-- A word of a discovery-table entry (R352). -/
def Disc.word (d : Disc) (w : Nat) : Word :=
  match w with
  | 0 => BitVec.ofNat 64 (d.ltv.toNat * 2 ^ 56 + d.lanes.toNat * 2 ^ 48 + d.cores.toNat * 2 ^ 32 + d.inst.toNat * 2 ^ 24
      + siteStCode d.st * 2 ^ 16 + d.site.toNat * 2 ^ 8 + d.cls.toNat)
  | 1 => d.units
  | 2 => BitVec.ofNat 64 (d.fwver.toNat * 2 ^ 32 + d.schg.toNat)
  | _ => d.tchg

/-- DTRD (R158), in clock t + 1: the word of the table as it stands then, written 31 clocks later. -/
def execDtrd (s : State) : Host.Outcome State Fault Refusal :=
  let site := s.turn.ops.a.toNat
  let v := if site < 27 then (s.siteDisc site).word (fld s.turn.ops.b 0 2) else 0
  .next (s.emit .sys 31 [(0, .s v)])

/-- The overlay bits of DIAG (R159): valid entries, packed from the first as they were loaded, and which of them is running.
DEDUCED (log 27). -/
def Core.overlayBits (c : Core) : Nat :=
  (2 ^ c.overlays.length - 1) % 16 + (match c.running with | some i => 2 ^ i % 16 * 16 | none => 0)

/-- DIAG (R159): the word as it stands in the clock in which DIAG issues. DEDUCED (log 27). -/
def execDiag (s : State) : Host.Outcome State Fault Refusal :=
  let c := s.core s.turn.core
  let v : Word :=
    match s.turn.ops.a.toNat with
    | 0 => c.diagPriv.setWidth 64
    | 1 => (s.diagShared.get (siteOf s.turn.core) 0).setWidth 64
    | 2 => c.diagPar.setWidth 64
    | 3 => BitVec.ofNat 64 s.turn.core
    | 4 => BitVec.ofNat 64 c.overlayBits
    | _ => 0
  .next (s.emit .sys 2 [(0, .s v)])

/-! ## Buffer operations -/

/-- The allocator's decision on the ALLOC that the turn's core holds in issue (R259). An accepted request creates the buffer and
pins its entry; a refusal answers its reason under NF, and is a fault otherwise. -/
def execAlloc (s : State) : Host.Outcome State Fault Refusal :=
  let n := s.turn.core
  let x := s.tctx
  let size := s.turn.ops.a
  let b := s.turn.ops.b
  let own := s.ownerRcb (s.rcbOf x.crew) b
  let put : State → Option (Handle × Word × Word) → State := fun t r =>
    t.modCore n (fun c =>
      match c.hold with
      | some h =>
        (match h.alloc with
         | some ah => { c with hold := some { h with alloc := some { ah with res := some r } } }
         | none => c)
      | none => c)
  match s.allocReason size b own x.part (some (siteOf n)) with
  | 0 =>
    let m := s.allocMake size b own x.part
    .next (put (m.2.pin (siteOf n) x.crew (hBid m.1.1)) (some (m.1.1, 0, BitVec.ofNat 64 m.1.2)))
  | reason => .next (put s (if bitAt b.toNat 18 then some (0, BitVec.ofNat 64 reason, 0) else none))

/-- A capability check's outcome as a fault of the triggering move (R257). -/
def State.capFault (s : State) (r : Option Nat) (off : Word) (h : Handle) : Check :=
  match r with
  | some code => s.faultHere code off h
  | none => .ok

/-- The first three tests of R257 on port H. -/
def checkBase (s : State) : Check :=
  s.capFault (s.capBase (siteOf s.turn.core) (s.rcbOf s.tctx.crew) (some s.tctx.nodeId.toNat) s.turn.ops.h) 0 s.turn.ops.h

/-- FREE (R260), in clock t + 1. -/
def execFree (s : State) : Host.Outcome State Fault Refusal :=
  guarded checkBase (fun t => t.dropRef (hBid t.turn.ops.h)) s

/-- The view that RETAIN derives (R260). -/
def retainView (h : Handle) (b : Word) : Nat := if fld b 0 28 = 0 then hView h else fld b 0 28

/-- Whether a view lies within another of one buffer. -/
def viewWithin (inner outer size : Nat) : Bool :=
  viewValid inner size && decide (viewBase outer ≤ viewBase inner) &&
    decide (viewBase inner + viewLen inner size ≤ viewBase outer + viewLen outer size)

/-- RETAIN's check (R260). -/
def checkRetain (s : State) : Check :=
  match checkBase s with
  | .ok =>
    let h := s.turn.ops.h
    if viewWithin (retainView h s.turn.ops.b) (hView h) (s.entryAt (siteOf s.turn.core) (hBid h)).size then .ok
    else s.faultHere cCAP_BOUNDS s.turn.ops.b h
  | c => c

/-- RETAIN (R260): one reference more, unless the buffer's reclaim has begun at the shard, and the derived handle at t + 4. -/
def execRetain (s : State) : Host.Outcome State Fault Refusal :=
  guarded checkRetain (fun t =>
    let h := t.turn.ops.h
    let bid := hBid h
    let e := t.buf bid
    let u := if e.state = 1 ∧ bid < windowBid then t.setBuf bid { e with refs := e.refs + 1 } else t
    let nh := mkHandle bid (hGen h) (hRights (dropRights h (fld t.turn.ops.b 28 4))) (retainView h t.turn.ops.b)
    u.emit .sys 4 [(2, .k nh)]) s

/-- HAND's check (R262). -/
def checkHand (s : State) : Check :=
  let h := s.turn.ops.h
  let x := s.tctx
  let rcb := s.rcbOf x.crew
  let e := fld s.turn.ops.b 0 11
  let succ := fld s.turn.ops.b 16 12
  match s.strandCap h 0 0 .h with
  | some code => s.faultHere code 0 h
  | none =>
    if !(s.inst rcb).handoff.contains e then s.faultHere cCAP_BOUNDS (BitVec.ofNat 64 e) h
    else if (s.inst rcb).htab.get e 0 ≠ 0 then s.faultHere cCAP_RIGHTS (BitVec.ofNat 64 e) h
    else if succ ≥ (s.node x.nodeId.toNat).succs.length then s.faultHere cCAP_BOUNDS (BitVec.ofNat 64 succ) h
    else .ok

/-- HAND (R262), in clock t + 1: OWN names the successor, at the shard and in the chiplet's own copy, and the handle stands in
the instance's table. -/
def execHand (s : State) : Host.Outcome State Fault Refusal :=
  guarded checkHand (fun t =>
    let h := t.turn.ops.h
    let bid := hBid h
    let x := t.tctx
    let rcb := t.rcbOf x.crew
    let own := BitVec.ofNat 16 ((t.node x.nodeId.toNat).succs.getD (fld t.turn.ops.b 16 12) 0)
    let k := siteOf t.turn.core * 2 ^ 24 + bid
    let u := t.setBuf bid { t.buf bid with own := own }
    let u := match u.pins.find k with
      | some p => { u with pins := u.pins.set k { p with copy := { p.copy with own := own } } }
      | none => u
    let i := u.inst rcb
    u.setInst rcb { i with htab := i.htab.set (fld t.turn.ops.b 0 11) h }) s

/-- The word that HINFO reports (R263). -/
def hinfoWord (e : Buf) (h : Handle) (a : Nat) : Word :=
  BitVec.ofNat 64
    (match a with
     | 0 => e.size
     | 1 => viewBase (hView h)
     | 2 => viewLen (hView h) e.size
     | 3 => e.fmt.toNat + b2n e.plc * 2 ^ 12 + e.pmem.toNat * 2 ^ 13 + e.key.toNat * 2 ^ 16 + e.uop.toNat * 2 ^ 27
         + hRights h * 2 ^ 32 + b2n (e.own != 0xFFFF) * 2 ^ 36
     | 4 => e.orcb
     | 5 => e.latch.toNat
     | 6 => extentsTotal e.size e.plc
     | _ => 0)

/-- HINFO (R263): the pinned copy as it stands in clock t + 1. -/
def execHinfo (s : State) : Host.Outcome State Fault Refusal :=
  guarded checkBase (fun t =>
    let h := t.turn.ops.h
    t.emit .sys 4 [(0, .s (hinfoWord (t.entryAt (siteOf t.turn.core) (hBid h)) h (fld t.turn.ops.a 0 3)))]) s

end Sys2Proof.Machine
end

