-- ==== Sys2Proof/Machine/Scratch.lean ====
section
/-! DEFINITION. Scratch memories: addresses (R216-R218), the shared scratch and its arbitration (R220, R221), and the scratch
operations of LSU (R235, R236). -/

namespace Sys2Proof.Machine

/-! ## Scratch addresses (R216, R217) -/

/-- The units whose scratch accesses R216 tells apart. -/
inductive SUnit where
  | lsu | vlsLoad | vlsStore
  deriving DecidableEq, Repr

/-- SPACE of a scratch address. -/
def saSpace (sa : Nat) : Nat := bitsAt sa 28 4
/-- OFF of a scratch address: [23:0] for SPACE 0x2 and 0x3, else [27:0]. -/
def saOff (sa : Nat) : Nat := if saSpace sa = 2 ∨ saSpace sa = 3 then bitsAt sa 0 24 else bitsAt sa 0 28

/-- Whether ARR names an array of the chiplet in the partition's array mask. -/
def State.arrayOk (s : State) (site part arr : Nat) : Bool :=
  decide (arr < arraysOf (s.cls site)) && (s.part part).masks.array.getLsbD (site * 8 + arr)

/-- Whether a unit may access a SPACE (R216). -/
def State.spaceOk (s : State) (core part : Nat) (u : SUnit) (sa : Nat) : Bool :=
  match saSpace sa, u with
  | 0, _ => true
  | 1, _ => true
  | 2, .vlsStore => s.arrayOk (siteOf core) part (bitsAt sa 24 4)
  | 3, .vlsLoad => s.arrayOk (siteOf core) part (bitsAt sa 24 4)
  | _, _ => false

/-- The base address and size of what a scratch address reaches: the private share, the crew's shared segment, or the partition's
share of an A or C buffer. -/
def State.scratchArea (s : State) (core : Nat) (sa : Nat) : Nat × Nat :=
  let x := (s.core core).ctx
  let site := siteOf core
  match saSpace sa with
  | 0 => s.psmShare core x.part
  | 1 => (ssmAddr site (s.crew x.crew).scr, (s.crew x.crew).scrLen)
  | 2 => s.typedShare site (bitsAt sa 24 4) 1 x.part
  | _ => s.typedShare site (bitsAt sa 24 4) 2 x.part

/-- The absolute address of the byte at an offset: private offsets wrap modulo the share. -/
def scratchByte (space : Nat) (area : Nat × Nat) (off : Int) : Nat :=
  if space = 0 then area.1 + (off % (area.2 : Int)).toNat else area.1 + off.toNat

/-- Whether n bytes at an offset lie in the area; private offsets always do. -/
def scratchIn (space : Nat) (area : Nat × Nat) (off : Int) (n : Nat) : Bool :=
  space == 0 || (decide (0 ≤ off) && decide (off + n ≤ (area.2 : Int)))

/-- The MISALIGN trap of an access (R56, R217). -/
def misalign (fu : FU) (bidx : Word) (sa size : Nat) : TrapInfo :=
  { cause := cMISALIGN, fu := fu.id, info0 := bidx, info1 := BitVec.ofNat 64 sa, info2 := BitVec.ofNat 64 size,
    ret := bidx.setWidth 13 }

/-- A misaligned access of the turn, or the fault it becomes (R54). -/
def State.misalignHere (s : State) (fu : FU) (sa size : Nat) : Check :=
  s.tctx.trapOr (misalign fu s.turn.bidx sa size) s.turn.slot s.turn.bidx

/-- The check of one scratch access of n bytes that must be aligned to al: rights, bounds and alignment in that order (R216,
R217), and for a private load the poison of its granules (R422). -/
def State.scratchCheck (s : State) (fu : FU) (u : SUnit) (sa n al : Nat) : Check :=
  let core := s.turn.core
  let area := s.scratchArea core sa
  let d := BitVec.ofNat 64 sa
  if !s.spaceOk core s.tctx.part u sa then s.faultHere cCAP_RIGHTS d 0
  else if !scratchIn (saSpace sa) area (saOff sa) n then s.faultHere cCAP_BOUNDS d 0
  else if saOff sa % al ≠ 0 then s.misalignHere fu sa al
  else .ok

/-- The absolute addresses of n bytes of a scratch access. -/
def State.scratchAddrs (s : State) (core sa n : Nat) : List Nat :=
  let area := s.scratchArea core sa
  (List.range n).map (fun i => scratchByte (saSpace sa) area ((saOff sa + i : Nat) : Int))

/-- Whether any of the addresses lies in a poisoned granule. DEDUCED (log 24). -/
def State.anyPoison (s : State) (as : List Nat) : Bool :=
  if s.poison.isEmpty then false else as.any (fun a => s.poison.contains (a / 64))

/-- POISON at a reading bundle whose scratch bytes are poisoned (R422). DEDUCED (log 24). -/
def State.poisonCheck (s : State) (as : List Nat) (sa : Nat) : Check :=
  if s.anyPoison as then s.faultHere cPOISON (BitVec.ofNat 64 sa) 0 else .ok

/-! ## Shared scratch (R220, R221) -/

/-- A new request group of the turn's core, with its requests: one per granule, in the order of the addresses. DEDUCED (log 25). -/
def State.ssmRequest (s : State) (g : SsmGroup) (reqs : List (Nat × List Host.Cell)) (wr : Bool) : State :=
  let id := s.stamp
  let mk : Nat × List Host.Cell → SsmReq := fun p =>
    { group := id, rank := g.core, born := s.now, seq := g.seq, gran := p.1, cells := p.2, wr := wr, core := g.core,
      crew := g.crew, inOrder := wr && g.long }
  { s with stamp := id + 1, ssmGroups := s.ssmGroups.set id { g with left := reqs.length }, ssm := s.ssm ++ reqs.map mk }

/-- The granules of addresses, each once, in the order of their first byte. -/
def granulesOf : List Nat → List Nat := fun as => (as.map (fun a => a / 64)).eraseDups

/-- The cells of each granule, granules in the order of their first cell. -/
def cellsByGranule (cs : List Host.Cell) : List (Nat × List Host.Cell) :=
  (granulesOf (cs.map (fun c => c.1))).map (fun g => (g, cs.filter (fun c => c.1 / 64 == g)))

/-- A shared-scratch load: its result enters a window base clocks after the clock in which its last granule is served (R221). -/
def State.ssmLoad (s : State) (fu : FU) (opc : BitVec 7) (addrs : List Nat) (base : Nat) (long : Bool) : State :=
  let n := s.turn.core
  let x := s.tctx
  let g : SsmGroup :=
    { site := siteOf n, core := n, crew := x.crew, fu := fu, opc := opc, addrs := addrs, got := [], left := 0, issued := s.now,
      base := base, waited := 0, seq := x.seq + 1, bidx := s.turn.bidx, long := long }
  (s.ssmRequest g ((granulesOf addrs).map (fun a => (a, []))) false).modCtx n Ctx.nextSeq

/-- The requests of an engine of the turn for granules of shared scratch, which rank after those of the cores (R220): the group keeps the
granules' bytes. -/
def State.ssmFetch (s : State) (e site crew : Nat) (addrs : List Nat) : State :=
  let g : SsmGroup :=
    { site := site, core := 4096 + e, crew := crew, fu := .vls, opc := 0, addrs := addrs, got := [], left := 0, issued := s.now,
      base := 0, waited := 0, seq := 0, bidx := 0, long := true }
  s.ssmRequest g (addrs.map (fun a => (a / 64, []))) false

/-- The site whose shared scratch a request names. -/
def SsmReq.site (r : SsmReq) : Nat := r.gran / 2 ^ 18 - 2 ^ 41

/-- Stores to shared scratch requested; they are made as R220 serves them. -/
def State.ssmStore (s : State) (fu : FU) (cs : List Host.Cell) : State :=
  let n := s.turn.core
  let x := s.tctx
  match cs with
  | [] => s
  | _ =>
    let g : SsmGroup :=
      { site := siteOf n, core := n, crew := x.crew, fu := fu, opc := 0, addrs := [], got := [], left := 0, issued := s.now,
        base := 0, waited := 0, seq := x.seq + 1, bidx := s.turn.bidx, long := false }
    (s.ssmRequest g (cellsByGranule cs) true).modCtx n Ctx.nextSeq

/-- Whether a core has an unserved shared-scratch store issued before operation seq (R280). -/
def State.ssmStoresBefore (s : State) (core crew seq : Nat) : Bool :=
  s.ssm.any (fun r => r.wr && r.core == core && r.crew == crew && decide (r.seq < seq))

/-- What one clock of the arbiter has granted so far: the granules read, the banks read directly, the banks and parity banks that
rebuilds use, those that a write of this clock holds, the granules written, and the cores, with their operations, and granules whose
stores wait. Banks are 0-63, parity banks 128-143. -/
structure Grants where
  reads : List Nat
  direct : List Nat
  used : List Nat
  held : List Nat
  written : List Nat
  waitCore : List (Nat × Nat)
  waitGran : List Nat
  waitOwn : List (Nat × Nat)
  deriving DecidableEq, Repr

/-- The data bank of a granule (R220). -/
def bankOf (gran : Nat) : Nat := gran % 64

/-- Whether a request is served in this clock, after the older requests of the clock (R220). busy holds the banks and parity
banks that a write of the clock before holds. A core's stores are served in issue order, the granules of one store each for itself but those of a long store in order (R234),
writes of one granule in the order they were made, and a core's load never before its own earlier store of the granule (R236). -/
def grantOne (busy : List Nat) (g : Grants) (r : SsmReq) : Bool × Grants :=
  let b := bankOf r.gran
  let grp := b / 4
  let par := 128 + grp
  let taken : Nat → Bool := fun k => busy.contains k || g.used.contains k || g.held.contains k
  let others := ((List.range 4).map (fun i => grp * 4 + i)).filter (fun k => k != b)
  if r.wr then
    if g.waitCore.any (fun w => w.1 == r.core && (w.2 != r.group || r.inOrder)) || g.waitGran.contains r.gran || taken b || taken par
        || (g.direct.contains b && !g.reads.contains r.gran) then
      (false, { g with waitCore := (r.core, r.group) :: g.waitCore, waitGran := r.gran :: g.waitGran,
                       waitOwn := (r.core, r.gran) :: g.waitOwn })
    else (true, { g with held := b :: par :: g.held, written := r.gran :: g.written })
  else if g.waitOwn.contains (r.core, r.gran) then (false, g)
  else if g.written.contains r.gran || g.reads.contains r.gran then (true, g)
  else if !g.direct.contains b && !taken b then (true, { g with reads := r.gran :: g.reads, direct := b :: g.direct })
  else if g.direct.contains b && !taken par && others.all (fun k => !g.direct.contains k && !taken k) then
    (true, { g with reads := r.gran :: g.reads, used := par :: others ++ g.used })
  else (false, g)

/-- Older requests first; of equal age, control cores in ascending package core number before engines; then in issue order. -/
def reqBefore (a b : SsmReq) : Bool :=
  decide (a.born < b.born) ||
    (a.born == b.born && (decide (a.rank < b.rank) || (a.rank == b.rank && decide (a.group < b.group))))

/-- A request put into its place. -/
def insertReq (r : SsmReq) : List SsmReq → List SsmReq
  | [] => [r]
  | x :: xs => if reqBefore r x then r :: x :: xs else x :: insertReq r xs

/-- The requests served in one clock, in the order of service. -/
def grantAll (busy : List Nat) : Grants → List SsmReq → List SsmReq × Grants
  | g, [] => ([], g)
  | g, r :: rs =>
    let a := grantOne busy g r
    let b := grantAll busy a.2 rs
    (if a.1 then r :: b.1 else b.1, b.2)

/-- Elements put into a tile at their indices, each of w bits, from their bytes in order. -/
def gatherTile (w : Nat) : List Nat → List Byte → Nat
  | [], _ => 0
  | q :: qs, bs => (ofBytes (bs.take (w / 8)) <<< (q * w)) ||| gatherTile w qs (bs.drop (w / 8))

/-- A load's group after its last granule: a fixed-latency load goes in flight and writes base clocks from now; a long load hands
its tile to its sequencer. -/
def State.ssmFinish (s : State) (id : Nat) (g : SsmGroup) : State :=
  let t := { s with ssmGroups := s.ssmGroups.erase id }
  if g.addrs.isEmpty then t
  else
    let c := t.core g.core
    if c.ctx.crew ≠ g.crew then t
    else if g.long then
      match c.ctx.vlsLong with
      | some l =>
        let bytes := g.addrs.map (fun a => NMap.get g.got a (0 : Byte))
        let tile : VReg := BitVec.ofNat 8192 (gatherTile l.width l.elems bytes)
        if l.group = some id then
          t.setCore g.core (c.modCtx (fun x => { x with vlsLong := some { l with group := none, tile := tile } }))
        else t
      | none => t
    else
      let bytes := g.addrs.map (fun a => NMap.get g.got a (0 : Byte))
      let v := ofBytes bytes
      let n := bytes.length
      let val : ResVal :=
        match g.fu with
        | .vls => .v (BitVec.ofNat 8192 v)
        | _ =>
          match g.opc.toNat with
          | 0 => .s (sext64 v 8)
          | 2 => .s (sext64 v 16)
          | 4 => .s (sext64 v 32)
          | _ => .s (zext64 v (8 * n))
      t.setCore g.core
        { c with
          inflight := c.inflight ++
            [{ fu := g.fu, due := c.age + g.base, seq := g.seq, writes := [(0, val)], raised := 0, enabled := 0, lowest := 0,
               bidx := g.bidx, slot := 0, macC := false }] }

/-- One served request: a write is made; a read takes its granule's bytes. -/
def State.ssmServeOne (s : State) (r : SsmReq) : State :=
  let t := if r.wr then s.writeMem r.cells else s
  let t := { t with ssm := t.ssm.filter (fun x => !(x.group == r.group && x.gran == r.gran)) }
  match t.ssmGroups.find r.group with
  | none => t
  | some g =>
    let mine := g.addrs.filter (fun a => a / 64 == r.gran)
    let got := mine.foldl (fun m a => NMap.set m a (Memory.read t.mem a)) g.got
    let g' := { g with got := got, left := g.left - 1 }
    if 4096 ≤ r.core then
      let bytes := (Memory.readN t.mem (r.gran * 64) 64).zipIdx.map (fun b => (r.gran * 64 + b.2, b.1))
      { t with ssmGroups := t.ssmGroups.set r.group { g with got := g.got ++ bytes, left := g.left - 1 } }
    else if g'.left = 0 then t.ssmFinish r.group g' else { t with ssmGroups := t.ssmGroups.set r.group g' }

/-- SHARED_SCRATCH_SERVE (R220): one clock of the shared scratch of the turn's site. Writes of the clock are made before its
reads (R219), so a read of a granule written in the same clock returns the written data. -/
def execSharedScratchServe (s : State) : Host.Outcome State Fault Refusal :=
  let site := s.turn.site
  let mineReq : SsmReq → Bool := fun r => decide (r.gran / 2 ^ 18 = 2 ^ 41 + site)
  let reqs := ((s.ssm.filter mineReq).foldl (fun l r => insertReq r l) [])
  let busy := (s.ssmHeld.filter (fun k => k / 256 == site)).map (fun k => k % 256)
  let g := grantAll busy ⟨[], [], [], [], [], [], [], []⟩ reqs
  let t := { s with ssmHeld := s.ssmHeld.filter (fun k => k / 256 != site) ++ g.2.held.map (fun k => site * 256 + k) }
  let t := (g.1.filter (fun r => r.wr)).foldl State.ssmServeOne t
  .next ((g.1.filter (fun r => !r.wr)).foldl State.ssmServeOne t)

/-! ## Scratch loads and stores of LSU -/

/-- Whether a scratch address names the shared segment. -/
def isShared (sa : Nat) : Bool := saSpace sa == 1

/-- The check of an LSU load or store of n bytes (R235, R236). -/
def checkLsu (n : Nat) (load : Bool) (s : State) : Check :=
  let sa := fld s.turn.ops.a 0 32
  match s.scratchCheck .lsu .lsu sa n n with
  | .ok => if load then s.poisonCheck (s.scratchAddrs s.turn.core sa n) sa else .ok
  | c => c

/-- The value of a load of n bytes: sign-extended or zero-extended. -/
def loadValue (n : Nat) (sx : Bool) (v : Nat) : Word := if sx then sext64 v (8 * n) else zext64 v (8 * n)

/-- A scratch load of n bytes (R235): latency 4 from private scratch, 6 from shared scratch (R233). -/
def lsuLoad (n : Nat) (sx : Bool) (opc : BitVec 7) (s : State) : Host.Outcome State Fault Refusal :=
  guarded (checkLsu n true) (fun t =>
    let sa := fld t.turn.ops.a 0 32
    let as := t.scratchAddrs t.turn.core sa n
    if isShared sa then t.ssmLoad .lsu opc as 6 false
    else t.emit .lsu 4 [(0, .s (loadValue n sx (ofBytes (as.map (Memory.read t.mem)))))]) s

/-- LDB (R235). -/
def execLdb (s : State) : Host.Outcome State Fault Refusal := lsuLoad 1 true 0 s
/-- LDBU (R235). -/
def execLdbu (s : State) : Host.Outcome State Fault Refusal := lsuLoad 1 false 1 s
/-- LDH (R235). -/
def execLdh (s : State) : Host.Outcome State Fault Refusal := lsuLoad 2 true 2 s
/-- LDHU (R235). -/
def execLdhu (s : State) : Host.Outcome State Fault Refusal := lsuLoad 2 false 3 s
/-- LDW (R235). -/
def execLdw (s : State) : Host.Outcome State Fault Refusal := lsuLoad 4 true 4 s
/-- LDWU (R235). -/
def execLdwu (s : State) : Host.Outcome State Fault Refusal := lsuLoad 4 false 5 s
/-- LDD (R235). -/
def execLdd (s : State) : Host.Outcome State Fault Refusal := lsuLoad 8 false 6 s

/-- Cells stored to scratch: private scratch and A buffers at once, shared scratch as R220 serves it. -/
def State.scratchStore (s : State) (fu : FU) (shared : Bool) (cs : List Host.Cell) : State :=
  if shared then s.ssmStore fu cs else s.writeMem cs

/-- A scratch store of the low n bytes of B (R236). -/
def lsuStore (n : Nat) (s : State) : Host.Outcome State Fault Refusal :=
  guarded (checkLsu n false) (fun t =>
    let sa := fld t.turn.ops.a 0 32
    let as := t.scratchAddrs t.turn.core sa n
    t.scratchStore .lsu (isShared sa) (as.zip (toBytes t.turn.ops.b.toNat n))) s

/-- STB (R236). -/
def execStb (s : State) : Host.Outcome State Fault Refusal := lsuStore 1 s
/-- STH (R236). -/
def execSth (s : State) : Host.Outcome State Fault Refusal := lsuStore 2 s
/-- STW (R236). -/
def execStw (s : State) : Host.Outcome State Fault Refusal := lsuStore 4 s
/-- STD (R236). -/
def execStd (s : State) : Host.Outcome State Fault Refusal := lsuStore 8 s

end Sys2Proof.Machine
end

