-- ==== Sys2Proof/Machine/Global.lean ====
section
/-! DEFINITION. Global memory as a core reaches it: loads and the landing sill (R225-R228, R237), the read cache (R228, R239), the
write-combining buffer and the store replay queue (R229, R238, R278, R279). -/

namespace Sys2Proof.Machine

/-! ## The landing sill (R225) -/

/-- A scalar slot put in PENDING for an operation. -/
def Ctx.pendS (x : Ctx) (slot seq : Nat) : Ctx :=
  { x with sillS := x.sillS.set slot { x.sillS.get slot SillS.empty with st := .pending, seq := seq } }

/-- A vector slot put in PENDING for an operation. -/
def Ctx.pendV (x : Ctx) (slot seq : Nat) : Ctx :=
  { x with sillV := x.sillV.set slot { x.sillV.get slot SillV.empty with st := .pending, seq := seq } }

/-- A value landed in a scalar slot of a map, if the slot waits for that operation; otherwise the landing is discarded. -/
def landSlot (m : NMap SillS) (slot seq : Nat) (v : Word) (st : SlotSt) : NMap SillS :=
  let e := m.get slot SillS.empty
  if e.st = .pending ∧ e.seq = seq then m.set slot { e with val := v, st := st } else m

/-- A value landed in a vector slot. -/
def landVSlot (m : NMap SillV) (slot seq : Nat) (v : VReg) (st : SlotSt) : NMap SillV :=
  let e := m.get slot SillV.empty
  if e.st = .pending ∧ e.seq = seq then m.set slot { e with val := v, st := st } else m

/-- A landing in a scalar slot: the live slot and the copy the trap slot holds (R58 step 4, R283). -/
def Ctx.landS (x : Ctx) (slot seq : Nat) (v : Word) (st : SlotSt) : Ctx :=
  { x with
    sillS := landSlot x.sillS slot seq v st
    trapSlot := x.trapSlot.map (fun t => { t with sillS := landSlot t.sillS slot seq v st }) }

/-- A landing in a vector slot. -/
def Ctx.landV (x : Ctx) (slot seq : Nat) (v : VReg) (st : SlotSt) : Ctx :=
  { x with
    sillV := landVSlot x.sillV slot seq v st
    trapSlot := x.trapSlot.map (fun t => { t with sillV := landVSlot t.sillV slot seq v st }) }

/-! ## Checks of global accesses -/

/-- The check of an access of n bytes at offset A through H: A[63:48] first, then R257 (R237). -/
def State.globalCheck (s : State) (n : Nat) (r : Right) : Check :=
  let a := s.turn.ops.a
  let h := s.turn.ops.h
  if fld a 48 16 ≠ 0 then s.faultHere cCAP_BOUNDS a h
  else s.capFault (s.strandCap h (a.toNat : Int) n r) a h

/-! ## Loads -/

/-- The bytes of a core's own stores that no MEM has made yet, oldest store first (R228): the replay queue, the lines written out
and the write-combining buffer. -/
def Core.pendingCells (c : Core) : List Host.Cell :=
  c.replay.flatMap (fun o => o.cells) ++ c.outs.flatMap (fun o => o.cells) ++ c.wcb.flatMap (fun l => l.cells)

/-- The same bytes in n bytes at an address, each with a store of the line that holds it. -/
def Core.pendingIn (c : Core) (a n : Nat) : List (Nat × Host.Cell) :=
  let tag : List Nat → List Host.Cell → List (Nat × Host.Cell) := fun ids cs =>
    (cs.filter (fun x => decide (a ≤ x.1) && decide (x.1 < a + n))).map (fun x => (ids.headD 0, x))
  c.replay.flatMap (fun o => tag o.ids o.cells) ++ c.outs.flatMap (fun o => tag o.ids o.cells) ++ c.wcb.flatMap (fun l => tag l.ids l.cells)

/-- Whether a line of a granule that holds bytes of a store of the core's strand has not been made yet. -/
def Core.unmade (c : Core) (id g : Nat) : Bool :=
  c.replay.any (fun o => o.crew == c.ctx.crew && o.ids.contains id && o.cells.any (fun x => x.1 / 64 == g)) ||
    c.outs.any (fun o => o.crew == c.ctx.crew && o.ids.contains id && o.cells.any (fun x => x.1 / 64 == g)) ||
    c.wcb.any (fun l => l.ids.contains id && l.line == g)

/-- The cells of a list that lie in n bytes at an address. -/
def cellsIn (a n : Nat) (cs : List Host.Cell) : List Host.Cell :=
  cs.filter (fun c => decide (a ≤ c.1) && decide (c.1 < a + n))

/-- A line of the read cache, if it is valid. -/
def Core.cachedLine (c : Core) (line : Nat) : Option CacheLine := c.rcache.find? (fun l => l.line == line)

/-- The bytes of an access whose lines are all valid in the read cache. -/
def Core.cacheHit (c : Core) (a n : Nat) : Option (List Host.Cell) :=
  let lines := granules a n
  if lines.all (fun l => (c.cachedLine l).isSome) then
    some ((List.range n).map (fun i =>
      let b := a + i
      match c.cachedLine (b / 64) with
      | some l => (b, BitVec.ofNat 8 (bitsAt l.bytes.toNat (b % 64 * 8) 8))
      | none => (b, 0)))
  else none

/-- A global load put in flight by the turn's strand (R225, R227): its slot is PENDING for it and LDC counts it. Data of a read
cache hit lands in clock t + 8. -/
def State.startLoad (s : State) (n : Nat) (dst : LoadDst) (size arr notBefore : Nat) (counted cached fwd : Bool) : State :=
  let h := s.turn.ops.h
  let a := s.turn.ops.a.toNat
  s.modCore n (fun c =>
    let x := c.ctx.nextSeq
    let addr := hAddr h a
    let now := s.cycle (siteOf n)
    let hit := if cached then c.cacheHit addr size else none
    let l : GLoad :=
      { seq := x.seq, dst := dst, h := h, off := a, addr := addr, size := size, deadline := now + arr,
        notBefore := (match hit with | some _ => now + 8 | none => now + notBefore),
        todo := (match hit with | some _ => [] | none => granules addr size), arrived := [], got := hit.getD [], poison := false,
        fwd := if fwd && hit.isNone then c.pendingIn addr size else [], counted := counted, cached := cached && hit.isNone }
    let y := match dst with
      | .scalar slot _ => x.pendS slot x.seq
      | .vector slot => x.pendV slot x.seq
      | _ => x
    { c with ctx := { y with loads := y.loads ++ [l], ldc := if counted then y.ldc + 1 else y.ldc } })

/-- A GLD of n bytes (R237). -/
def globalLoad (n : Nat) (s : State) : Host.Outcome State Fault Refusal :=
  guarded (fun t => t.globalCheck n .r) (fun t =>
    let b := t.turn.ops.b
    t.startLoad t.turn.core (.scalar (fld b 0 5) (bitAt b.toNat 5)) n (fld b 6 10) 1 true true true) s

/-- GLDB (R237). -/
def execGldb (s : State) : Host.Outcome State Fault Refusal := globalLoad 1 s
/-- GLDH (R237). -/
def execGldh (s : State) : Host.Outcome State Fault Refusal := globalLoad 2 s
/-- GLDW (R237). -/
def execGldw (s : State) : Host.Outcome State Fault Refusal := globalLoad 4 s
/-- GLDD (R237). -/
def execGldd (s : State) : Host.Outcome State Fault Refusal := globalLoad 8 s

/-- PREF (R239): a fetch of the line that holds offset A; one that would fail any check does nothing. DEDUCED (log 57). -/
def execPref (s : State) : Host.Outcome State Fault Refusal :=
  match s.globalCheck 1 .r with
  | .ok => .next (s.startLoad s.turn.core .none 1 0 1 false true false)
  | _ => .next s

/-- A fill of the read cache by a line as its MEM serves it, with the core's own stores not yet made laid over it. -/
def Core.fillLine (c : Core) (line : Nat) (bytes : List Byte) : Core :=
  let cells := (Memory.cellsAt (line * 64) bytes) ++ cellsIn (line * 64) 64 c.pendingCells
  let m := cells.foldl (fun m x => NMap.set m x.1 x.2) ([] : List Host.Cell)
  let data := (List.range 64).map (fun i => NMap.get m (line * 64 + i) (0 : Byte))
  let keep := c.rcache.filter (fun l => l.line != line)
  { c with rcache := ({ line := line, bytes := BitVec.ofNat 512 (ofBytes data) } :: keep).take 1024 }

/-- One granule of a load read at its MEM: pending bins apply first, a GLD's clean granule fills the read cache (R228, R335). What the load
takes is the granule as the MEM holds it with the core's own earlier stores made that are still pending, so that no granule is a mixture
(R228, R269). -/
def State.serveGranule (s : State) (core : Nat) (seq g : Nat) : State :=
  let lo := g * 64
  let r := s.readBuf lo 64
  let bytes := r.1.1
  let bad := r.1.2
  r.2.modCore core (fun c =>
    let c := if bad then c else
      (if c.ctx.loads.any (fun l => l.seq == seq && l.cached) then c.fillLine g bytes else c)
    c.modCtx (fun x =>
      { x with loads := x.loads.map (fun l =>
          if l.seq = seq then
            { l with todo := l.todo.filter (fun y => y != g), arrived := l.arrived.filter (fun y => y.1 != g), poison := l.poison || bad,
                     got := l.got ++ cellsIn l.addr l.size (Memory.cellsAt lo bytes) ++
                       (l.fwd.filter (fun f => f.2.1 / 64 == g && c.unmade f.1 g)).map (fun f => f.2)
                     fwd := l.fwd.filter (fun f => f.2.1 / 64 != g) }
          else l) }))

/-- The bytes a load lands: what it read, the core's own earlier stores among it. -/
def GLoad.bytes (l : GLoad) : List Byte :=
  let m := l.got.foldl (fun m x => NMap.set m x.1 x.2) ([] : List Host.Cell)
  (List.range l.size).map (fun i => NMap.get m (l.addr + i) (0 : Byte))

/-- A counter lowered by one; it never goes below 0. -/
def dec16 (x : BitVec 16) : BitVec 16 := if x = 0 then 0 else x - 1

/-- The stream entry at a position landed. -/
def Stream.land (st : Stream) (pos epoch : Nat) (e : StreamEnt) : Stream :=
  if st.epoch = epoch ∧ st.q ≤ pos ∧ pos < st.g then { st with queue := st.queue.set (pos - st.q) e } else st

/-- A load's data put where it lands, or discarded: only the load issued last lands in a slot (R225). -/
def Ctx.landLoad (x : Ctx) (l : GLoad) : Ctx :=
  let v := ofBytes l.bytes
  let st : SlotSt := if l.poison then .poisoned else .full
  let y :=
    match l.dst with
    | .scalar slot sx => x.landS slot l.seq (loadValue l.size sx v) st
    | .vector slot => x.landV slot l.seq (BitVec.ofNat 8192 v) st
    | .stream pos epoch =>
      { x with stream := x.stream.land pos epoch (if l.poison then .poisoned else .landed (BitVec.ofNat 64 v)) }
    | .none => x
  { y with loads := y.loads.filter (fun k => k.seq != l.seq), ldc := if l.counted then dec16 y.ldc else y.ldc }

/-- Whether a load may land: its granules are read and its earliest clock has come. -/
def GLoad.ready (l : GLoad) (now : Nat) : Bool := l.todo.isEmpty && decide (l.notBefore ≤ now)

/-- LOAD_LANDING (R225, R227): the load of the turn's core that the turn's item numbers lands, or is discarded, once its data has
arrived. -/
def execLoadLanding (s : State) : Host.Outcome State Fault Refusal :=
  let n := s.turn.core
  match (s.core n).ctx.loads.find? (fun l => l.seq == s.turn.item) with
  | some l =>
    if l.ready (s.cycle (siteOf n)) then .next (s.modCtx n (fun x => x.landLoad l)) else .next s
  | none => .next s

/-- MEM_TIMEOUT (R49, R226): the fault raised at the reading bundle after 2 ms of a freeze on a landing slot, or of a drain. -/
def execMemTimeout (s : State) : Host.Outcome State Fault Refusal :=
  let n := s.turn.core
  let slot := match (s.core n).freeze with
    | some f => f.2
    | none => s.turn.item
  .next (s.stopIssue n (.fault (strandFault cMEM_TIMEOUT s.turn.slot (s.core n).ctx.pc (BitVec.ofNat 64 slot) 0)))

/-! ## Stores (R229, R238) -/

/-- The oldest line of the write-combining buffer written out, unless the full replay queue holds everything back (R278).
DEDUCED (log 29). -/
def Core.writeOutFirst (c : Core) : Core :=
  if 8 ≤ c.replay.length then c
  else
    match c.wcb with
    | [] => c
    | l :: ls =>
      { c with
        wcb := ls
        outs := c.outs ++ [{ crew := c.ctx.crew, h := l.h, off := l.off, cells := l.cells, ids := l.ids, parked := none,
                             permanent := false }] }

/-- Every line written out, as far as the replay queue allows. DEDUCED (log 29). -/
def Core.writeOutAll (c : Core) : Nat → Core
  | 0 => c
  | k + 1 => Core.writeOutAll c.writeOutFirst k

/-- The cells of a store in one line merged into the write-combining buffer; a new line when all 32 are held first writes out the
one allocated earliest. -/
def Core.mergeLine (c : Core) (h : Handle) (off seq now : Nat) (line : Nat) (cs : List Host.Cell) : Core :=
  if c.wcb.any (fun l => l.line == line) then
    { c with wcb := c.wcb.map (fun l =>
        if l.line = line then { l with cells := l.cells ++ cs, ids := l.ids ++ [seq], idle := now } else l) }
  else
    let d := if 32 ≤ c.wcb.length then c.writeOutFirst else c
    { d with wcb := d.wcb ++ [{ h := h, off := off, line := line, cells := cs, ids := [seq], idle := now, first := now }] }

/-- The core's own read cache updated by its store (R228). -/
def Core.patchCache (c : Core) (cs : List Host.Cell) : Core :=
  let patch : CacheLine → CacheLine := fun l =>
    let mine := cs.filter (fun x => x.1 / 64 == l.line)
    { l with bytes := mine.foldl (fun b x => putFld b (x.1 % 64 * 8) 8 x.2.toNat) l.bytes }
  { c with rcache := c.rcache.map patch }

/-- A global store of cells by the turn's strand: STC counts it once until every byte is acknowledged. A store of no bytes is
acknowledged at once. -/
def State.startStore (s : State) (cs : List Host.Cell) : State :=
  let n := s.turn.core
  let h := s.turn.ops.h
  let off := s.turn.ops.a.toNat
  match cs with
  | [] => s
  | _ =>
    s.modCore n (fun c =>
      let x := c.ctx.nextSeq
      let c := { c with ctx := { x with stc := x.stc + 1 } }
      let c := (cellsByGranule cs).foldl (fun d p => d.mergeLine h off x.seq (s.cycle (siteOf n)) p.1 p.2) c
      c.patchCache cs)

/-- A GST of n bytes (R238). -/
def globalStore (n : Nat) (s : State) : Host.Outcome State Fault Refusal :=
  guarded (fun t => t.globalCheck n .w) (fun t =>
    t.startStore (Memory.cellsAt (hAddr t.turn.ops.h t.turn.ops.a.toNat) (toBytes t.turn.ops.b.toNat n))) s

/-- GSTB (R238). -/
def execGstb (s : State) : Host.Outcome State Fault Refusal := globalStore 1 s
/-- GSTH (R238). -/
def execGsth (s : State) : Host.Outcome State Fault Refusal := globalStore 2 s
/-- GSTW (R238). -/
def execGstw (s : State) : Host.Outcome State Fault Refusal := globalStore 4 s
/-- GSTD (R238). -/
def execGstd (s : State) : Host.Outcome State Fault Refusal := globalStore 8 s

/-- WC_LINE_WRITEOUT (R229): the oldest line of the turn's core, or the line at the place that the turn's item names when it has
been idle, is written out. -/
def execWcLineWriteout (s : State) : Host.Outcome State Fault Refusal :=
  .next (s.modCore s.turn.core (fun c =>
    if 8 ≤ c.replay.length then c
    else
      match c.wcb[s.turn.item]? with
      | none => c
      | some l =>
        { c with
          wcb := c.wcb.eraseIdx s.turn.item
          outs := c.outs ++ [{ crew := c.ctx.crew, h := l.h, off := l.off, cells := l.cells, ids := l.ids, parked := none,
                               permanent := false }] }))

/-- Whether bytes of a crew's store are still held anywhere in its core. -/
def Core.holdsStore (c : Core) (crew id : Nat) : Bool :=
  (c.ctx.crew == crew && c.wcb.any (fun l => l.ids.contains id)) || c.outs.any (fun o => o.crew == crew && o.ids.contains id) ||
    c.replay.any (fun o => o.crew == crew && o.ids.contains id)

/-- STC lowered for every store of a list whose bytes are all acknowledged or discarded now. -/
def State.ackStores (s : State) (core crew : Nat) (ids : List Nat) : State :=
  let c := s.core core
  let done := (ids.eraseDups.filter (fun i => !c.holdsStore crew i)).length
  s.modStrand core crew (fun x => { x with stc := BitVec.ofNat 16 (x.stc.toNat - done) })

/-- The extents that cells reach. -/
def State.cellExts (s : State) (cs : List Host.Cell) : List Nat := (cs.map (fun c => s.extAt c.1)).eraseDups

/-- The answers of a MEM to a store: made, refused for now, or refused for good (R278, R279). -/
inductive StoreAnswer where
  | made | refused | permanent
  deriving DecidableEq, Repr

/-- What the MEM of a written-out line answers (R232, R278, R416, R423): a migrating or recalibrating extent refuses, a lost one
refuses permanently, and a fenced MEM serves no store. -/
def State.storeAnswer (s : State) (o : WcOut) : StoreAnswer :=
  let es := s.cellExts o.cells
  if es.any (fun k => (s.ext k).st == .lost) then .permanent
  else if es.any (fun k => (s.ext k).st == .migrating || (s.ext k).st == .recal || !s.memServes (extMem k)) then .refused
  else .made

/-- Whether an earlier held line of the core reaches one of the same extents, so that this one waits behind it (R278). -/
def State.behindParked (s : State) (c : Core) (o : WcOut) : Bool :=
  let es := s.cellExts o.cells
  c.replay.any (fun p => (s.cellExts p.cells).any (fun e => es.contains e))

/-- The granule of a written-out line. -/
def WcOut.gran (o : WcOut) : Nat := (o.cells.head?.map (fun c => c.1 / 64)).getD 0

/-- A written-out line back in front of the write-combining buffer: younger bytes of its granule that are held there merge over it. -/
def wcBack (now : Nat) (o : WcOut) (wcb : List WcLine) : List WcLine :=
  let old : WcLine := { h := o.h, off := o.off, line := o.gran, cells := o.cells, ids := o.ids, idle := now, first := now }
  match wcb.find? (fun l => l.line == o.gran) with
  | some l => { old with cells := o.cells ++ l.cells, ids := o.ids ++ l.ids, idle := l.idle } :: wcb.filter (fun x => x.line != o.gran)
  | none => old :: wcb

/-- A refused line parked in the replay queue. When all eight entries are full it stays in the write-combining buffer, and so do the
younger lines that same says reach its extent: stores to one extent are made in issue order (R278). -/
def Core.park (c : Core) (o : WcOut) (same : WcOut → Bool) (tick now : Nat) (perm : Bool) : Core :=
  if c.replay.length < 8 then { c with replay := c.replay ++ [{ o with parked := some (tick, tick), permanent := perm }] }
  else
    { c with outs := c.outs.filter (fun x => !same x), wcb := (o :: c.outs.filter same).foldr (wcBack now) c.wcb }

/-- Whether two written-out lines reach one extent. -/
def State.sameExtent (s : State) (o x : WcOut) : Bool := (s.cellExts x.cells).any (fun e => (s.cellExts o.cells).contains e)

/-- STORE_ACK (R229, R278): the MEM answers the written-out line at the place that the turn's item names. A made line is written
and acknowledged; a refused one is parked. -/
def execStoreAck (s : State) : Host.Outcome State Fault Refusal :=
  let n := s.turn.core
  let c := s.core n
  match c.outs[s.turn.item]? with
  | none => .next s
  | some o =>
    let t := s.setCore n { c with outs := c.outs.eraseIdx s.turn.item }
    if s.behindParked c o then .next (t.modCore n (fun d => d.park o (s.sameExtent o) s.tick (s.cycle (siteOf n)) false))
    else
      match s.storeAnswer o with
      | .made => .next ((t.writeBuf o.cells).ackStores n o.crew o.ids)
      | .refused => .next (t.modCore n (fun d => d.park o (s.sameExtent o) s.tick (s.cycle (siteOf n)) false))
      | .permanent => .next (t.modCore n (fun d => d.park o (s.sameExtent o) s.tick (s.cycle (siteOf n)) true))

/-- STORE_REPLAY_RETRY (R278): the parked store at the place that the turn's item names is tried again. -/
def execStoreReplayRetry (s : State) : Host.Outcome State Fault Refusal :=
  let n := s.turn.core
  let c := s.core n
  match c.replay[s.turn.item]? with
  | none => .next s
  | some o =>
    match s.storeAnswer o with
    | .made =>
      .next (((s.setCore n { c with replay := c.replay.eraseIdx s.turn.item }).writeBuf o.cells).ackStores n o.crew o.ids)
    | .refused =>
      .next (s.setCore n { c with
        replay := c.replay.set s.turn.item { o with parked := o.parked.map (fun p => (p.1, s.tick)) } })
    | .permanent => .next (s.setCore n { c with replay := c.replay.set s.turn.item { o with permanent := true } })

/-- The first latch or fence operation that was issued while one of the stores was parked takes note of its discard (R279). -/
def noteBad (ids : List Nat) (off : Nat) (h : Handle) : List SlotOp → List SlotOp
  | [] => []
  | k :: ks =>
    if k.parked.any (fun i => ids.contains i) then
      { k with bad := (match k.bad with | some b => some b | none => some (off, h)) } :: ks
    else k :: noteBad ids off h ks

/-- UNRESOLVED_STORE_DISCARD (R279): the parked store at the place that the turn's item names is discarded. The next release
point of its strand that was issued while it was parked lands poisoned, and the store stays noted until a read raises its fault;
without one the fault waits for the node's retirement,
or, for a strand that is switched out, for its next release point (R366). -/
def execUnresolvedStoreDiscard (s : State) : Host.Outcome State Fault Refusal :=
  let n := s.turn.core
  let c := s.core n
  match c.replay[s.turn.item]? with
  | none => .next s
  | some o =>
    let t := s.setCore n { c with replay := c.replay.eraseIdx s.turn.item }
    let t := t.ackStores n o.crew o.ids
    let out : Bool := c.ctx.crew != o.crew
    .next (t.modStrand n o.crew (fun x =>
      if x.slotOps.any (fun k => k.parked.any (fun i => o.ids.contains i)) then
        { x with slotOps := noteBad o.ids o.off o.h x.slotOps,
                 noted := x.noted ++ ((x.slotOps.find? (fun k => k.parked.any (fun i => o.ids.contains i))).map (fun k => (k.seq, o.off, o.h))).toList }
      else { x with unresolved := (match x.unresolved with | some b => some b | none => some (o.off, o.h)),
                    carry := x.carry || out }))

end Sys2Proof.Machine
end

