-- ==== Sys2Proof/Machine/Syn.lean ====
section
/-! DEFINITION. The SYN unit: latches and fences (R267, R276-R283), flags (R372, R373), FFR (R371), signals of strands (R374, R375),
and the conditions of the waits (R368-R370). -/

namespace Sys2Proof.Machine

/-! ## Engine entries of a strand -/

/-- The OPC of a tile command word (R122). -/
def opcOf (w : Bits256) : Nat := fld w 248 8

/-- The entries of an engine: queued, in execution, stopped, and in elastic buffers. -/
def Engine.entries (e : Engine) : List QEnt :=
  e.queue ++ (match e.cur with | some x => [x.main.ent] | none => []) ++ e.saved.map (fun x => x.main.ent)
    ++ e.elastic.flatMap (fun p => p.2) ++ e.off

/-- The entries a strand pushed that have not completed: order stamp and OPC. -/
def State.strandEntries (s : State) (core crew : Nat) : List (Nat × Nat) :=
  (s.engines.flatMap (fun p => p.2.entries.filter (fun q =>
    q.core == core && q.crew == crew && q.pkt.isNone && q.chain.isNone))).map (fun q => (q.stamp, opcOf q.word))

/-- Whether an entry's path is named by a FROM mask (R266, R277). -/
def pathNamed (mask : BitVec 8) (opc : Nat) : Bool :=
  match opc / 32 with
  | 0 => if opc = 8 then mask.getLsbD 7 else mask.getLsbD 1
  | 1 => mask.getLsbD 2
  | 2 => mask.getLsbD 3
  | 3 => mask.getLsbD 4
  | 4 => mask.getLsbD 5
  | _ => mask.getLsbD 1

/-! ## Issue of latch and fence operations (R277) -/

/-- The slot operation of the turn put in flight: its slot is PENDING, and it lands no earlier than clock t + 8. A release point
takes an unresolved store that struck while the context was switched out (R366). -/
def State.startSlotOp (s : State) (slot : Nat) (w : SlotWait) (release : Bool) : State :=
  let n := s.turn.core
  s.modCore n (fun c =>
    let x := c.ctx.nextSeq
    let takes := release && x.carry
    let k : SlotOp :=
      { seq := x.seq, slot := slot, notBefore := s.cycle (siteOf n) + 8, wait := w,
        tout := (match w with
          | .acq _ _ _ d _ _ => d - s.tick
          | .sigwt _ _ _ d => d - s.tick
          | _ => 0),
        bad := if takes then x.unresolved else none,
        parked := if release then (c.replay.filter (fun o => o.crew == x.crew)).flatMap (fun o => o.ids) else [] }
    let y := x.pendS slot x.seq
    { c with ctx := { y with slotOps := y.slotOps ++ [k],
                             noted := if takes then y.noted ++ (y.unresolved.map (fun b => (x.seq, b.1, b.2))).toList else y.noted,
                             unresolved := if takes then none else y.unresolved, carry := y.carry && !takes } })

/-- The check of ACQ and TACQ (R277): with BIND, the first three tests of R257 and the latch the buffer is bound to. -/
def checkAcq (s : State) : Check :=
  let o := s.turn.ops
  if bitAt o.b.toNat 5 then
    match checkBase s with
    | .ok =>
      let l := (s.entryAt (siteOf s.turn.core) (hBid o.h)).latch
      if l = 0 ∨ l.toNat = fld o.a 0 16 then .ok else s.faultHere cCAP_RIGHTS 0 o.h
    | c => c
  else .ok

/-- A buffer bound to a latch if it is unbound, at the shard and in the chiplet's own copy (R267, R277). -/
def State.bindLatch (s : State) (site bid latch : Nat) : State :=
  if windowBid ≤ bid then s
  else
    let b := s.buf bid
    let l := BitVec.ofNat 16 latch
    let t := if b.latch = 0 then s.setBuf bid { b with latch := l } else s
    let k := site * 2 ^ 24 + bid
    match t.pins.find k with
    | some p => if p.copy.latch = 0 then { t with pins := t.pins.set k { p with copy := { p.copy with latch := l } } } else t
    | none => t

/-- Whether the rules of R276 refuse a request at once: latch number 0, already held or waited on by this strand, or 16 already. -/
def Ctx.refusesLatch (x : Ctx) (latch : Nat) : Bool :=
  let waits : List Nat := x.slotOps.filterMap (fun k =>
    match k.wait with
    | .acq l _ _ _ _ g => if g = 0 then some l else none
    | _ => none)
  latch == 0 || x.latches.any (fun p => p.1 == latch) || waits.contains latch ||
    decide (16 ≤ x.latches.length + waits.length)

/-- A timeout operand: 0, or a value above 150,000, acts as 150,000 (R277, R375). -/
def capTimeout (t : Nat) : Nat := if t = 0 ∨ 150000 < t then 150000 else t

/-- ACQ and TACQ (R277). -/
def acquire (tryIt : Bool) (s : State) : Host.Outcome State Fault Refusal :=
  guarded checkAcq (fun t =>
    let o := t.turn.ops
    let latch := fld o.a 0 16
    let u := if bitAt o.b.toNat 5 then t.bindLatch (siteOf t.turn.core) (hBid o.h) latch else t
    let w : SlotWait :=
      if u.tctx.refusesLatch latch then .code 0
      else .acq latch (bitAt o.b.toNat 6) tryIt (u.tick + capTimeout (fld o.c 0 18)) false 0
    u.startSlotOp (fld o.b 0 5) w false) s

/-- ACQ (R277). -/
def execAcq (s : State) : Host.Outcome State Fault Refusal := acquire false s
/-- TACQ (R277). -/
def execTacq (s : State) : Host.Outcome State Fault Refusal := acquire true s

/-- Whether a release of a latch flushes a strand's update stream: the stream is attached to a region bound to the latch, or holds a pair
emitted into such a region (R267, R270, R277). DEDUCED (log 89). -/
def State.flushesStream (s : State) (x : Ctx) (latch : Nat) : Bool :=
  let bound : Handle → Bool := fun h => latch != 0 && (s.buf (hBid h)).latch.toNat == latch
  x.upd.att.any (fun a => bound a.1) || x.upd.entries.any (fun e => e.any (fun p => bound p.h))

/-- REL (R277): every line of the write-combining buffer is written out. -/
def execRel (s : State) : Host.Outcome State Fault Refusal :=
  let n := s.turn.core
  let o := s.turn.ops
  let entries := if bitAt o.b.toNat 5 then (s.strandEntries n s.tctx.crew).map (fun p => p.1) else []
  let t := s.startSlotOp (fld o.b 0 5) (.rel (fld o.a 0 16) (s.flushesStream s.tctx (fld o.a 0 16)) entries) true
  .next (t.modCore n (fun c => c.writeOutAll c.wcb.length))

/-- FENCE (R277). -/
def execFence (s : State) : Host.Outcome State Fault Refusal :=
  .next (s.startSlotOp (fld s.turn.ops.b 0 5) .fence true)

/-- XFENCE (R277): every line of the write-combining buffer is written out (R229). -/
def execXfence (s : State) : Host.Outcome State Fault Refusal :=
  let n := s.turn.core
  let o := s.turn.ops
  let from_ := BitVec.ofNat 8 (fld o.a 0 8)
  let entries := ((s.strandEntries n s.tctx.crew).filter (fun p => pathNamed from_ p.2)).map (fun p => p.1)
  let t := s.startSlotOp (fld o.b 0 5) (.xfence from_ (BitVec.ofNat 8 (fld o.a 8 8)) entries) (from_.getLsbD 0)
  .next (t.modCore n (fun c => c.writeOutAll c.wcb.length))

/-! ## What the operations wait for -/

/-- Whether any global store of a strand issued before operation seq is not yet acknowledged or discarded. -/
def Core.storesBefore (c : Core) (crew seq : Nat) : Bool :=
  (c.ctx.crew == crew && c.wcb.any (fun l => l.ids.any (fun i => decide (i < seq)))) ||
    c.outs.any (fun o => o.crew == crew && o.ids.any (fun i => decide (i < seq))) ||
    c.replay.any (fun o => o.crew == crew && o.ids.any (fun i => decide (i < seq)))

/-- Whether a long store issued before operation seq has not been made. -/
def longStoreBefore (o : Option LongOp) (seq : Nat) : Bool :=
  match o with
  | some l => !l.isLoad && decide (l.seq < seq)
  | none => false

/-- Whether every CORE write issued before operation seq is made (R277, FENCE). -/
def State.coreWritesMade (s : State) (core crew seq : Nat) (x : Ctx) : Bool :=
  !(s.core core).storesBefore crew seq && !s.ssmStoresBefore core crew seq && !longStoreBefore x.vlsLong seq &&
    !longStoreBefore x.vxuLong seq

/-- Whether every update pair of a strand emitted before operation seq is accepted. -/
def Ctx.pairsAccepted (x : Ctx) (seq : Nat) : Bool :=
  x.upd.entries.all (fun e => e.all (fun p => decide (seq ≤ p.seq)))

/-- Whether entries of a strand named by their order stamps have all completed. -/
def State.entriesDone (s : State) (core crew : Nat) (stamps : List Nat) : Bool :=
  stamps.isEmpty || (s.strandEntries core crew).all (fun p => !stamps.contains p.1)

/-- A signal comparison (R339). -/
def sigCompare (cmp : Nat) (v n : Word) : Bool :=
  match cmp with
  | 0 => v == n
  | 1 => v != n
  | 2 => v.slt n
  | 3 => v.sle n
  | 4 => n.slt v
  | 5 => n.sle v
  | _ => false

/-- The 64-bit signal at an address, as its MEM reads it once no bin is pending there: each reader applies the bins first (R335, R374). -/
def State.signalAt (s : State) (a : Nat) : Word := BitVec.ofNat 64 (ofBytes (Memory.readN s.mem a 8))

/-- The key of a latch of a partition. -/
def latchKey (part num : Nat) : Nat := part * 65536 + num

/-- The code an operation would land now, or none while it waits (R276, R277, R333); a SIGWT's evaluation has its answer (R375). -/
def State.slotCode (s : State) (core crew : Nat) (x : Ctx) (k : SlotOp) : Option Word :=
  match k.wait with
  | .code v => some v
  | .acq _ _ _ _ _ g => if g = 0 then none else some (BitVec.ofNat 64 g)
  | .rel latch flush entries =>
    if s.entriesDone core crew entries && !(s.core core).storesBefore crew k.seq && (!flush || x.pairsAccepted k.seq) then
      some (b2w (decide (latch ≠ 0) && x.latches.any (fun p => p.1 == latch)))
    else none
  | .fence => if s.coreWritesMade core crew k.seq x then some 1 else none
  | .xfence from_ _ entries =>
    if (!from_.getLsbD 0 || s.coreWritesMade core crew k.seq x) && (!from_.getLsbD 5 || x.pairsAccepted k.seq)
        && s.entriesDone core crew entries then some 1
    else none
  | .flush => if x.pairsAccepted k.seq then some 1 else none
  | .sigwt _ _ _ _ => none
  | .poisoned => some 0

/-! ## Latches at their MEM (R276, R362) -/

/-- A latch entry. -/
def State.latch (s : State) (k : Nat) : Latch := s.latches.get k Latch.free

/-- A latch entry stored, and freed when MODE is free, WQ is empty and ABH is 0 (R362). -/
def State.setLatch (s : State) (k : Nat) (l : Latch) : State :=
  if l.mode = 0 ∧ l.wq = [] ∧ l.abh = false then { s with latches := s.latches.erase k }
  else { s with latches := s.latches.set k l }

/-- Whether a MEM's latch table has room for one more entry. -/
def State.latchRoom (s : State) (k : Nat) : Bool :=
  (s.latches.find k).isSome || decide ((s.latches.filter (fun p => p.1 % 8 == k % 8)).length < 16384)

/-- Whether the head request may be granted. -/
def Latch.grantable (l : Latch) (shr : Bool) : Bool := l.mode == 0 || (shr && l.mode == 1)

/-- A holder removed; the last one frees the latch. -/
def Latch.drop (l : Latch) (h : Nat × Nat) : Latch :=
  let hs := l.holders.filter (fun p => p != h)
  { l with holders := hs, mode := if hs.isEmpty then 0 else l.mode }

/-- A strand releases a latch that it holds: no holder has been aborted since (R276). -/
def State.releaseLatch (s : State) (core crew part latch : Nat) : State :=
  let k := latchKey part latch
  let t := s.setLatch k { (s.latch k).drop (core, crew) with abh := false }
  t.modStrand core crew (fun x => { x with latches := x.latches.filter (fun p => p.1 != latch) })

/-- Every latch of an aborted strand passes on, marked as following an aborted holder (R273), and its waiting requests go. -/
def State.abortLatches (s : State) (core crew : Nat) : State :=
  let fix : Nat × Latch → Nat × Latch := fun p =>
    let mine := p.2.holders.contains (core, crew)
    let l := p.2.drop (core, crew)
    (p.1, { l with abh := l.abh || mine, wq := l.wq.filter (fun r => !(r.core == core && r.crew == crew)) })
  { s with latches := (s.latches.map fix).filter (fun p => !(p.2.mode == 0 && p.2.wq.isEmpty && !p.2.abh)) }

/-- The read cache lines of regions bound to a latch invalidated (R276). -/
def State.invalidateBound (s : State) (core latch : Nat) : State :=
  let bound : CacheLine → Bool := fun l => (s.buf (l.line * 64 / 2 ^ 40)).latch.toNat == latch
  s.modCore core (fun c => { c with rcache := c.rcache.filter (fun l => !bound l) })

/-- A latch operation of a strand updated. -/
def Ctx.modSlotOp (x : Ctx) (seq : Nat) (f : SlotOp → SlotOp) : Ctx :=
  { x with slotOps := x.slotOps.map (fun k => if k.seq = seq then f k else k) }

/-- The request of the turn's strand arrives at its latch's MEM: an ACQ joins the queue when the table has room for it; a TACQ is
granted or refused on the spot (R277, R362). -/
def State.latchArrive (s : State) (core crew part : Nat) (k : SlotOp) : State :=
  match k.wait with
  | .acq latch shr tryIt deadline false 0 =>
    let key := latchKey part latch
    let l := s.latch key
    let sent : Ctx → Ctx := fun x => x.modSlotOp k.seq (fun y => { y with wait := .acq latch shr tryIt deadline true 0 })
    let refuse : Ctx → Ctx := fun x => x.modSlotOp k.seq (fun y => { y with wait := .code 0 })
    if tryIt then
      if s.latchRoom key && l.grantable shr && (if shr then l.wq.all (fun r => r.shr) else l.wq.isEmpty) then
        (s.setLatch key { l with wq := l.wq ++ [{ core := core, crew := crew, seq := k.seq, shr := shr }] }).modStrand core crew
          sent
      else s.modStrand core crew refuse
    else if s.latchRoom key then
      (s.setLatch key { l with wq := l.wq ++ [{ core := core, crew := crew, seq := k.seq, shr := shr }] }).modStrand core crew sent
    else s
  | _ => s

/-- LATCH_GRANT (R276, R362): the latch that the turn's item names grants the request at the head of its queue, if it can. -/
def execLatchGrant (s : State) : Host.Outcome State Fault Refusal :=
  let key := s.turn.item
  let l := s.latch key
  match l.wq with
  | [] => .next s
  | r :: rest =>
    if l.grantable r.shr then
      let code := if l.abh then 2 else 1
      let latch := key % 65536
      let t := s.setLatch key
        { l with mode := if r.shr then 1 else 2, holders := l.holders ++ [(r.core, r.crew)], wq := rest, abh := false }
      let t := t.invalidateBound r.core latch
      .next (t.modStrand r.core r.crew (fun x =>
        { x.modSlotOp r.seq (fun y =>
            match y.wait with
            | .acq a b c d e _ => { y with wait := .acq a b c d e code }
            | _ => y) with latches := x.latches ++ [(latch, r.shr)] }))
    else .next s

/-- A request withdrawn from its latch's queue. -/
def State.withdraw (s : State) (core crew part latch seq : Nat) : State :=
  let k := latchKey part latch
  let l := s.latch k
  s.setLatch k { l with wq := l.wq.filter (fun r => !(r.core == core && r.crew == crew && r.seq == seq)) }

/-- ACQ_TIMEOUT (R277): the ACQ that the turn's item numbers, not granted in time, is withdrawn and lands 0. A TACQ has no
timeout. -/
def execAcqTimeout (s : State) : Host.Outcome State Fault Refusal :=
  let n := s.turn.core
  let crew := s.turn.crew
  match s.strand n crew with
  | none => .next s
  | some x =>
    match x.slotOps.find? (fun k => k.seq == s.turn.item) with
    | some k =>
      (match k.wait with
       | .acq latch _ false deadline _ 0 =>
         if deadline ≤ s.tick then
           .next ((s.withdraw n crew x.part latch k.seq).modStrand n crew (fun y =>
             y.modSlotOp k.seq (fun z => { z with wait := .code 0 })))
         else .next s
       | _ => .next s)
    | none => .next s

/-- One evaluation of a SIGWT (R375): its signal read at its MEM, where pending bins apply first. A poisoned granule answers POISONED
(R231). -/
def State.sigEval (s : State) (n crew seq : Nat) : State :=
  match s.strand n crew with
  | none => s
  | some x =>
    match x.slotOps.find? (fun k => k.seq == seq) with
    | some k =>
      (match k.wait with
       | .sigwt a cmp v _ =>
         let r := s.readBuf a 8
         let answer : Option SlotWait :=
           if r.1.2 then some .poisoned
           else if sigCompare cmp (BitVec.ofNat 64 (ofBytes r.1.1)) v then some (.code 1)
           else none
         (match answer with
          | some w => r.2.modStrand n crew (fun y => y.modSlotOp seq (fun z => { z with wait := w }))
          | none => r.2)
       | _ => s)
    | none => s

/-- SIGWT_TIMEOUT (R375): the SIGWT that the turn's item numbers lands 0 once its timeout has passed and its comparison does not hold. -/
def execSigwtTimeout (s : State) : Host.Outcome State Fault Refusal :=
  let n := s.turn.core
  let crew := s.turn.crew
  let s := s.sigEval n crew s.turn.item
  match s.strand n crew with
  | none => .next s
  | some x =>
    match x.slotOps.find? (fun k => k.seq == s.turn.item) with
    | some k =>
      (match k.wait with
       | .sigwt _ _ _ deadline =>
         if deadline ≤ s.tick then
           .next (s.modStrand n crew (fun y => y.modSlotOp k.seq (fun z => { z with wait := .code 0 })))
         else .next s
       | _ => .next s)
    | none => .next s

/-- What an operation does when it lands: REL releases its latch, XFENCE with CORE in TO invalidates the read cache. -/
def State.slotEffect (s : State) (core crew : Nat) (x : Ctx) (k : SlotOp) (code : Word) : State :=
  match k.wait with
  | .rel latch _ _ => if code = 1 then s.releaseLatch core crew x.part latch else s
  | .xfence _ to_ _ => if to_.getLsbD 0 then s.modCore core (fun c => { c with rcache := [] }) else s
  | _ => s

/-- LATCH_FENCE_LANDING (R276, R277, R279, R333, R375): the operation of the turn's strand that the item numbers lands its code,
or lands poisoned, once what it waits for has come. A SIGWT is evaluated first. -/
def execLatchFenceLanding (s : State) : Host.Outcome State Fault Refusal :=
  let n := s.turn.core
  let crew := s.turn.crew
  let s := s.sigEval n crew s.turn.item
  match s.strand n crew with
  | none => .next s
  | some x =>
    match x.slotOps.find? (fun k => k.seq == s.turn.item) with
    | none => .next s
    | some k =>
      match s.slotCode n crew x k with
      | none => .next s
      | some code =>
        if s.cycle (siteOf n) < k.notBefore then .next s
        else
          let st : SlotSt := match k.bad, k.wait with
            | some b, _ => .unresolved b.1 b.2
            | none, .poisoned => .poisoned
            | none, _ => .full
          .next ((s.slotEffect n crew x k code).modStrand n crew (fun y =>
            { y.landS k.slot k.seq code st with slotOps := y.slotOps.filter (fun z => z.seq != k.seq) }))

/-! ## Flags (R372, R373) -/

/-- The flag file's entry of a crew's flag. -/
def State.flagKey (s : State) (crew idx : Nat) : Nat := (s.crew crew).site * 512 + (s.crew crew).flag + idx

/-- A flag's sum with a signed increment, clamped, and whether it was clamped. -/
def clampFlag (old : BitVec 16) (inc : Int) : BitVec 16 × Bool :=
  let v := (old.toNat : Int) + inc
  let c := min (max v 0) 65535
  (BitVec.ofInt 16 c, decide (c ≠ v))

/-- The check of a local flag operation: its index lies in the crew's segment. -/
def checkFlag (s : State) : Check :=
  let i := fld s.turn.ops.a 0 9
  if i ≥ (s.crew s.tctx.crew).flagLen then s.faultHere cCAP_BOUNDS (BitVec.ofNat 64 i) 0 else .ok

/-- FLADD's check: a remote one makes none. -/
def checkFladd (s : State) : Check := if bitAt s.turn.ops.a.toNat 32 then .ok else checkFlag s

/-- FLADD (R372, R373), in clock t + 1. -/
def execFladd (s : State) : Host.Outcome State Fault Refusal :=
  guarded checkFladd (fun t =>
    let o := t.turn.ops
    let x := t.tctx
    let inc := sfld o.b 0 16
    let site := siteOf t.turn.core
    if bitAt o.a.toNat 32 then
      let r : RemoteInc :=
        { fromSite := site, fromPart := x.part, fromCore := t.turn.core, crew := fld o.a 16 16, idx := fld o.a 0 9, inc := inc }
      { t.emit .syn 1 [(0, .s 0), (1, .s 0)] with
        remotes := t.remotes ++ [r]
        prc := t.prc.set site (t.prc.get site 0 + 1) }
    else
      let k := t.flagKey x.crew (fld o.a 0 9)
      let old := t.flags.get k 0
      let r := clampFlag old inc
      { t with flags := t.flags.set k r.1 }.emit .syn 1 [(0, .s (old.setWidth 64)), (1, .s (b2w r.2))]) s

/-- FLSET (R372), in clock t + 1. -/
def execFlset (s : State) : Host.Outcome State Fault Refusal :=
  guarded checkFlag (fun t =>
    let k := t.flagKey t.tctx.crew (fld t.turn.ops.a 0 9)
    let old := t.flags.get k 0
    { t with flags := t.flags.set k (BitVec.ofNat 16 (fld t.turn.ops.b 0 16)) }.emit .syn 1
      [(0, .s (old.setWidth 64)), (1, .s 0)]) s

/-- FLRD (R372), in clock t + 1. -/
def execFlrd (s : State) : Host.Outcome State Fault Refusal :=
  guarded checkFlag (fun t =>
    t.emit .syn 1 [(0, .s ((t.flags.get (t.flagKey t.tctx.crew (fld t.turn.ops.a 0 9)) 0).setWidth 64)), (1, .s 0)]) s

/-- The outcome of a remote increment at a live crew (R373): applied, held for a crew that is switched out, or discarded. -/
def State.applyRemote (s : State) (r : RemoteInc) : State :=
  match s.crews.find r.crew with
  | none => s
  | some c =>
    if c.part ≠ r.fromPart ∨ r.idx ≥ c.flagLen then s
    else if c.st = .out then s.setCrew r.crew { c with held := c.held ++ [r] }
    else
      let k := s.flagKey r.crew r.idx
      { s with flags := s.flags.set k (clampFlag (s.flags.get k 0) r.inc).1 }

/-- REMOTE_FLADD_ARRIVAL (R373): the increment at the place that the turn's item names arrives and is acknowledged. Increments of
one core to one crew arrive in issue order. -/
def execRemoteFladdArrival (s : State) : Host.Outcome State Fault Refusal :=
  match s.remotes[s.turn.item]? with
  | none => .next s
  | some r =>
    let rest := s.remotes.eraseIdx s.turn.item
    let t := { s with remotes := rest, crewsEnded := if rest.isEmpty then [] else s.crewsEnded,
                      prc := s.prc.set r.fromSite (dec16 (s.prc.get r.fromSite 0)) }
    .next (t.applyRemote r)

/-- FFR (R371), in clock t + 1 after the tag completions of that clock. -/
def execFfr (s : State) : Host.Outcome State Fault Refusal :=
  let x := s.tctx
  match lowestBit (x.tags &&& s.turn.ops.a).toNat 64 with
  | none => .next (s.emit .syn 1 [(0, .s 64), (1, .s 0)])
  | some k =>
    .next ((s.modCtx s.turn.core (fun y => { y with tags := putFld y.tags k 1 0 })).emit .syn 1
      [(0, .s (BitVec.ofNat 64 k)), (1, .s 1)])

/-! ## Signals (R375) -/

/-- The check of an 8-byte signal at offset A with right R: an offset that is not a multiple of 8 raises CAP_BOUNDS. -/
def checkSignal (s : State) : Check :=
  if s.turn.ops.a.toNat % 8 ≠ 0 then s.faultHere cCAP_BOUNDS s.turn.ops.a s.turn.ops.h else s.globalCheck 8 .r

/-- SIGRD (R375). -/
def execSigrd (s : State) : Host.Outcome State Fault Refusal :=
  guarded checkSignal (fun t =>
    let b := t.turn.ops.b
    t.startLoad t.turn.core (.scalar (fld b 0 5) false) 8 (fld b 6 10) 8 true false false) s

/-- SIGWT's check. -/
def checkSigwt (s : State) : Check :=
  match checkSignal s with
  | .ok => if fld s.turn.ops.b 5 3 > 5 then s.faultHere cBAD_SHAPE s.turn.ops.b 0 else .ok
  | c => c

/-- SIGWT (R375). -/
def execSigwt (s : State) : Host.Outcome State Fault Refusal :=
  guarded checkSigwt (fun t =>
    let o := t.turn.ops
    t.startSlotOp (fld o.b 0 5)
      (.sigwt (hAddr o.h o.a.toNat) (fld o.b 5 3) o.c (t.tick + capTimeout (fld o.b 32 32))) false) s

/-! ## Waits (R368-R370) -/

/-- A core that holds nothing but a wait. -/
def Hold.empty (bidx : Word) : Hold :=
  { bundle := ⟨false, none, none, none, none, none, none, none, none, none⟩, bidx := bidx, born := 0, writes := [], trigs := [],
    alloc := none, wait := none, bids := [] }

/-- The wait of the turn put on its core: its bundle holds in issue. -/
def State.startWait (s : State) (cond : WaitCond) : State :=
  let o := s.turn.ops
  s.modCore s.turn.core (fun c =>
    let h := c.hold.getD (Hold.empty s.turn.bidx)
    { c with
      mode := .hold
      hold := some { h with wait := some { cond := cond, condWord := o.a, timeout := fld o.c 0 32, startTick := s.tick,
                                           slot := s.turn.slot } } })

/-- WAITC (R369). -/
def execWaitc (s : State) : Host.Outcome State Fault Refusal := .next (s.startWait (.counters s.turn.ops.a))

/-- WAITT (R369). -/
def execWaitt (s : State) : Host.Outcome State Fault Refusal :=
  .next (s.startWait (.tags s.turn.ops.a (bitAt s.turn.ops.b.toNat 0)))

/-- The four condition records at a private-scratch address (R370). -/
def State.waitRecords (s : State) : List (Word × Word) :=
  let as := s.scratchAddrs s.turn.core (fld s.turn.ops.a 0 32) 64
  let bs := as.map (Memory.read s.mem)
  (List.range 4).map (fun k =>
    let r := bs.drop (16 * k)
    (BitVec.ofNat 64 (ofBytes (r.take 8)), BitVec.ofNat 64 (ofBytes ((r.drop 8).take 8))))

/-- Whether a record breaks the rules of R370. DEDUCED (log 26). -/
def recordBad (w : Word) : Bool :=
  let kind := fld w 0 4
  let sel := fld w 4 3
  decide (5 < kind) || (kind == 1 && decide (4 < sel)) || (kind == 5 && decide (5 < sel)) || fld w 7 9 != 0 ||
    (kind == 4 && fld w 25 39 != 0)

/-- The first fault of the records of KIND 4 and 5, in record order. DEDUCED (log 26). -/
def State.recordFault (s : State) : List (Word × Word) → Check
  | [] => .ok
  | (w, _) :: rs =>
    let soff := fld w 16 48
    let h := s.turn.ops.h
    match fld w 0 4 with
    | 4 =>
      if fld w 16 9 ≥ (s.crew s.tctx.crew).flagLen then s.faultHere cCAP_BOUNDS (BitVec.ofNat 64 (fld w 16 9)) 0
      else s.recordFault rs
    | 5 =>
      if soff % 8 ≠ 0 then s.faultHere cCAP_BOUNDS (BitVec.ofNat 64 soff) h
      else
        (match s.strandCap h (soff : Int) 8 .r with
         | some code => s.faultHere code (BitVec.ofNat 64 soff) h
         | none => s.recordFault rs)
    | _ => s.recordFault rs

/-- WAITV's check (R370). DEDUCED (log 26). -/
def checkWaitv (s : State) : Check :=
  let sa := fld s.turn.ops.a 0 32
  if saSpace sa ≠ 0 then s.faultHere cCAP_RIGHTS (BitVec.ofNat 64 sa) 0
  else
    let mis : Check := if saOff sa % 16 ≠ 0 then s.misalignHere .syn sa 16 else .ok
    let rs := s.waitRecords
    match s.poisonCheck (s.scratchAddrs s.turn.core sa 64) sa with
    | .ok =>
      if saOff sa % 16 ≠ 0 then mis
      else if rs.any (fun r => recordBad r.1) then s.faultHere cBAD_SHAPE s.turn.ops.a 0
      else s.recordFault rs
    | c => if saOff sa % 16 ≠ 0 then mis else c

/-- WAITV (R370). -/
def execWaitv (s : State) : Host.Outcome State Fault Refusal :=
  guarded checkWaitv (fun t =>
    t.startWait (.records t.waitRecords (bitAt t.turn.ops.b.toNat 0) t.turn.ops.h)) s

/-- A counter by its SEL code (R370). -/
def Ctx.counter (x : Ctx) (sel : Nat) : BitVec 16 :=
  match sel with
  | 0 => x.ldc | 1 => x.stc | 2 => x.cpc | 3 => x.tlc | _ => x.upc

/-- One condition record's test; none for an unused record. -/
def State.recordHolds (s : State) (x : Ctx) (h : Handle) (r : Word × Word) : Option Bool :=
  match fld r.1 0 4 with
  | 1 => some (decide ((x.counter (fld r.1 4 3)).toNat ≤ r.2.toNat))
  | 2 => some (decide (x.tags &&& r.2 ≠ 0))
  | 3 => some (decide (x.tags &&& r.2 = r.2))
  | 4 => some (decide (r.2.toNat ≤ (s.flags.get (s.flagKey x.crew (fld r.1 16 9)) 0).toNat))
  | 5 => some (sigCompare (fld r.1 4 3) (s.signalAt (hAddr h (fld r.1 16 48))) r.2)
  | _ => none

/-- The pending bins of the signals that a wait's records name applied, as its evaluation reads them (R335, R370). -/
def State.applyWait (s : State) (w : Wait) : State :=
  match w.cond with
  | .records rs _ h => rs.foldl (fun t r => if fld r.1 0 4 = 5 then t.openAccess (hAddr h (fld r.1 16 48)) 8 else t) s
  | _ => s

/-- A wait's condition, and the D it would write, on the state as it stands (R369, R370). -/
def State.waitCond (s : State) (core : Nat) (w : Wait) : Bool × Word :=
  let x := (s.core core).ctx
  match w.cond with
  | .counters a =>
    ((List.range 5).all (fun i => fld a (4 * i) 4 == 15 || decide ((x.counter i).toNat ≤ fld a (4 * i) 4)),
      BitVec.ofNat 64 (s.tick - w.startTick))
  | .tags m all => (if all then x.tags &&& m == m else x.tags &&& m != 0, x.tags &&& m)
  | .records rs all h =>
    let cs := rs.map (s.recordHolds x h)
    (if all then cs.all (fun c => c.getD true) else cs.any (fun c => c.getD false),
      BitVec.ofNat 64 (packBits 1 (cs.map (fun c => b2n (c.getD all)))))

/-- Whether a wait's timeout has passed (R368). -/
def State.waitExpired (s : State) (w : Wait) : Bool := w.timeout != 0 && decide (w.startTick + w.timeout ≤ s.tick)

end Sys2Proof.Machine
end

