-- ==== Sys2Proof/Machine/Cmd.lean ====
section
/-! DEFINITION. The engine command queues as a core reaches them: binding of selectors, elastic buffers, PUSH, PUSHT and QFREE
(R294, R295, R297, R298), and ELASTIC_BUFFER_MOVE. -/

namespace Sys2Proof.Machine

/-- The engine that a selector of a core of a crew is bound to; none above 33 or where nothing is bound (R295, R310). Selectors 32
and 33 reach the shutter control and the signal unit of MEM core mod 8. -/
def State.boundEngine (s : State) (crew core sel : Nat) : Option Nat :=
  if sel = 32 then some (384 + core % 8)
  else if sel = 33 then some (392 + core % 8)
  else if sel > 33 then none
  else
    match (s.crew crew).bind.getD sel 0 with
    | 0 => none
    | k + 1 => some k

/-- The elastic buffer of a core at a queue (R294). -/
def Engine.elasticOf (e : Engine) (core : Nat) : List QEnt := e.elastic.get core []

/-- A word placed (R294): in the queue when it has room and nothing of the core waits before it, else in the core's elastic
buffer; and whether it entered the queue. -/
def Engine.place (e : Engine) (core : Nat) (q : QEnt) : Bool × Engine :=
  if e.queue.length < 16 ∧ e.elasticOf core = [] then (true, { e with queue := e.queue ++ [q] })
  else (false, { e with elastic := e.elastic.set core (e.elasticOf core ++ [q]) })

/-- Whether a word of a core can be placed at once (R298). -/
def Engine.room (e : Engine) (core : Nat) : Bool := decide ((e.elasticOf core).length < 8)

/-- The word of PUSH, or of PUSHT, which sets T and TAG (R297). -/
def pushWord (tag : Bool) (o : Operands) : Bits256 :=
  if tag then putFld (putFld o.word 247 1 1) 238 6 (fld o.a 8 6) else o.word

/-- Whether a word is an ATOM that lands its old value (R304). -/
def isRetAtom (w : Bits256) : Bool := opcOf w == 4 && w.getLsbD 174

/-- The refusal of a push (R124): treated as popped at once, SRC 1, with the class bits of ENG set. DEDUCED (log 33). -/
def refusedPush (s : State) (w : Bits256) : FaultInfo :=
  { strandFault cILLEGAL_CMD s.turn.slot s.turn.bidx (BitVec.ofNat 64 (fld w 192 64)) 0 with
    src := 1, estat := fld s.turn.ops.a 0 8, eng := 7 * 2 ^ 5 }

/-- The check of a push (R297, R298). -/
def checkPush (tag : Bool) (s : State) : Check :=
  match s.boundEngine s.tctx.crew s.turn.core (fld s.turn.ops.a 0 8) with
  | none => .fault (refusedPush s (pushWord tag s.turn.ops))
  | some e => if (s.eng e).room s.turn.core then .ok else .freeze none

/-- The entry a push makes; sill numbers the operation whose slot an ATOM lands. -/
def pushEntry (s : State) (w : Bits256) : QEnt :=
  { word := w, h0 := s.turn.ops.h, h1 := s.turn.ops.h1, core := s.turn.core, crew := s.tctx.crew, part := s.tctx.part,
    stamp := s.stamp, sill := s.tctx.seq, pkt := none, node := s.tctx.nodeId.toNat, chain := none }

/-- The counter of a word's class raised (R297): CPC for the copy class, TLC for every other. -/
def Ctx.countPush (x : Ctx) (w : Bits256) : Ctx :=
  if opcOf w / 32 = 0 then { x with cpc := x.cpc + 1 } else { x with tlc := x.tlc + 1 }

/-- A push whose checks have passed: the slot of an ATOM goes PENDING, the counters rise and the word is placed. -/
def State.pushWordTo (s : State) (e : Nat) (w : Bits256) : State :=
  let slot := fld w 175 5
  let t := s.modTurnCtx (fun x =>
    let y := x.nextSeq
    let z := if isRetAtom w then { y.pendS slot y.seq with ldc := y.ldc + 1 } else y
    z.countPush w)
  let r := (t.eng e).place t.turn.core (pushEntry t w)
  ({ t.setEng e r.2 with stamp := t.stamp + 1 }).emit .cmd 2 [(0, .s (b2w (!r.1)))]

/-- PUSH and PUSHT. -/
def pushOp (tag : Bool) (s : State) : Host.Outcome State Fault Refusal :=
  guarded (checkPush tag) (fun t =>
    match t.boundEngine t.tctx.crew t.turn.core (fld t.turn.ops.a 0 8) with
    | none => t
    | some e => t.pushWordTo e (pushWord tag t.turn.ops)) s

/-- PUSH (R297). -/
def execPush (s : State) : Host.Outcome State Fault Refusal := pushOp false s
/-- PUSHT (R297). -/
def execPusht (s : State) : Host.Outcome State Fault Refusal := pushOp true s

/-- The free counts QFREE reports (R297). -/
def Engine.freeCounts (e : Engine) (core : Nat) : Word :=
  BitVec.ofNat 64 (2 ^ 16 + (8 - (e.elasticOf core).length) * 2 ^ 8 + (16 - e.queue.length))

/-- QFREE (R297). -/
def execQfree (s : State) : Host.Outcome State Fault Refusal :=
  let d : Word := match s.boundEngine s.tctx.crew s.turn.core (fld s.turn.ops.a 0 8) with
    | none => 0
    | some e => (s.eng e).freeCounts s.turn.core
  .next (s.emit .cmd 2 [(0, .s d)])

/-- Of the heads of the elastic buffers the oldest push, then the lower core: the core whose word moves next (R294). -/
def oldestHead : NMap (List QEnt) → Option (Nat × QEnt)
  | [] => none
  | (c, q :: _) :: r =>
    (match oldestHead r with
     | some p => if p.2.stamp < q.stamp then some p else some (c, q)
     | none => some (c, q))
  | (_, []) :: r => oldestHead r

/-- Whether an entry whose queue image is in memory goes back to its engine: its crew is on its cores, no cut of its partition is in
progress, and the engine serves its partition or is not shared (R28, R66). -/
def State.comesBack (s : State) (e : Nat) (q : QEnt) : Bool :=
  (q.pkt.isSome || (s.crew q.crew).st != .out) && !s.partCutting q.part && !(s.part q.part).suspended &&
    (match s.slices.find (256 + e) with
     | some x => x.part == q.part
     | none => true)

/-- ELASTIC_BUFFER_MOVE (R66, R294): the oldest waiting word moves into a free entry of the turn's engine, those of queue images that come
back before all others. -/
def execElasticBufferMove (s : State) : Host.Outcome State Fault Refusal :=
  let e := s.eng s.turn.engine
  if e.queue.length < 16 then
    match e.off.find? (fun q => s.comesBack s.turn.engine q) with
    | some q => .next (s.setEng s.turn.engine { e with queue := e.queue ++ [q], off := e.off.filter (fun y => y.stamp != q.stamp) })
    | none =>
    match oldestHead e.elastic with
    | none => .next s
    | some (c, q) =>
      let rest := (e.elasticOf c).tail
      .next (s.setEng s.turn.engine
        { e with queue := e.queue ++ [q], elastic := if rest.isEmpty then e.elastic.erase c else e.elastic.set c rest })
  else .next s

end Sys2Proof.Machine
end

