-- ==== Sys2Proof/Machine/Upd.lean ====
section
/-! DEFINITION. The update unit (R331-R333) and PAIR_ACCEPT (R334, R336). -/

namespace Sys2Proof.Machine

/-- The open region that holds a whole range of a buffer. -/
def State.regionHolding (s : State) (bid lo hi : Nat) : Option Nat :=
  (s.regions.find? (fun p => p.2.bid == bid && decide (p.2.lo ≤ lo) && decide (hi ≤ p.2.hi))).map (fun p => p.1)

/-- The range of a buffer that a handle's view covers. -/
def State.viewRange (s : State) (site : Nat) (h : Handle) : Nat × Nat :=
  let size := (s.entryAt site (hBid h)).size
  let b := viewBase (hView h)
  (b, b + viewLen (hView h) size)

/-- The region that OPEN attaches to. -/
def State.openRegion (s : State) : Option Nat :=
  let h := s.turn.ops.h
  let r := s.viewRange (siteOf s.turn.core) h
  s.regionHolding (hBid h) r.1 r.2

/-- OPEN's check (R333). -/
def checkUpdOpen (s : State) : Check :=
  let h := s.turn.ops.h
  match s.strandCap h 0 0 .u with
  | some code => s.faultHere code 0 h
  | none =>
    match s.openRegion with
    | some _ => .ok
    | none => s.faultHere cCAP_RIGHTS (BitVec.ofNat 64 (viewBase (hView h))) h

/-- OPEN (R333). -/
def execUpdOpen (s : State) : Host.Outcome State Fault Refusal :=
  guarded checkUpdOpen (fun t =>
    let h := t.turn.ops.h
    let uop := (t.entryAt (siteOf t.turn.core) (hBid h)).uop
    (t.modTurnCtx (fun x => { x with upd := { x.upd with att := t.openRegion.map (fun r => (h, r)) } })).emit .upd 2
      [(0, .s (uop.setWidth 64))]) s

/-- A region's record. -/
def Region.none : Region :=
  { bid := 0, lo := 0, hi := 0, uop := 0, nosp := false, spills := 0, rq := 0, part := 0, orcb := 0 }

/-- A region by number. -/
def State.region (s : State) (k : Nat) : Region := s.regions.get k Region.none

/-- The first fault of a list of pairs at exact offsets (R333). -/
def State.pairFault (s : State) (h : Handle) (e : Nat) : List (Nat × Nat) → Check
  | [] => .ok
  | (off, _) :: ps =>
    let d := BitVec.ofNat 64 off
    match s.strandCap h (off : Int) e .u with
    | some code => s.faultHere code d h
    | none => if off % e ≠ 0 then s.faultHere cCAP_BOUNDS d h else s.pairFault h e ps

/-- EMIT's pair: offset and value. -/
def emitPairs (s : State) : List (Nat × Nat) :=
  match s.tctx.upd.att with
  | none => []
  | some a =>
    let e := uopSize (s.region a.2).uop.toNat
    [(s.turn.ops.a.toNat, fld s.turn.ops.b 0 (8 * e))]

/-- N of EMITV's port F. -/
def emitvN (o : Operands) : Nat := fld o.f 0 9

/-- EMITV's pairs (R333): offset A + X[q] and element q of Y, for the selected q. DEDUCED (log 23). -/
def emitvPairs (s : State) : List (Nat × Nat) :=
  let o := s.turn.ops
  match s.tctx.upd.att with
  | none => []
  | some a =>
    let e := uopSize (s.region a.2).uop.toNat
    ((List.range (emitvN o)).filter (fun q => !o.f.getLsbD 12 || o.mask.getLsbD q)).map (fun q =>
      (o.a.toNat + elem o.vx 32 q, elem o.vy (8 * e) q))

/-- The checks of EMIT and EMITV: an attached stream, the pairs, and a free entry of the stream. -/
def checkPairs (s : State) (ps : List (Nat × Nat)) : Check :=
  match s.tctx.upd.att with
  | none => s.faultHere cCAP_RIGHTS 0 0
  | some a =>
    match s.pairFault a.1 (uopSize (s.region a.2).uop.toNat) ps with
    | .ok => if !ps.isEmpty && decide (64 ≤ s.tctx.upd.entries.length) then .freeze none else .ok
    | c => c

/-- Pairs put in the stream as one entry; UPC rises by their number (R333). -/
def State.emitEntry (s : State) (ps : List (Nat × Nat)) : State :=
  match s.tctx.upd.att with
  | none => s
  | some a =>
    if ps.isEmpty then s
    else
      s.modTurnCtx (fun x =>
        let y := x.nextSeq
        let ent := ps.map (fun (p : Nat × Nat) =>
          { region := a.2, off := p.1, addr := hAddr a.1 p.1, val := BitVec.ofNat 64 p.2, h := a.1, seq := y.seq : UPair })
        { y with upd := { y.upd with entries := y.upd.entries ++ [ent] }, upc := y.upc + BitVec.ofNat 16 ps.length })

/-- EMIT (R333). -/
def execEmit (s : State) : Host.Outcome State Fault Refusal :=
  guarded (fun t => checkPairs t (emitPairs t)) (fun t => t.emitEntry (emitPairs t)) s

/-- EMITV's check. -/
def checkEmitv (s : State) : Check :=
  match s.tctx.upd.att with
  | none => s.faultHere cCAP_RIGHTS 0 0
  | some a =>
    let n := emitvN s.turn.ops
    if n > 256 ∨ n * uopSize (s.region a.2).uop.toNat > 1024 then s.faultHere cBAD_SHAPE (s.tctx.vshape.setWidth 64) 0
    else checkPairs s (emitvPairs s)

/-- EMITV (R333). -/
def execEmitv (s : State) : Host.Outcome State Fault Refusal :=
  guarded checkEmitv (fun t => t.emitEntry (emitvPairs t)) s

/-- FLUSH (R333). -/
def execFlush (s : State) : Host.Outcome State Fault Refusal :=
  .next (s.startSlotOp (fld s.turn.ops.a 0 5) .flush false)

/-- CLOSE (R333): pairs already emitted still travel. -/
def execClose (s : State) : Host.Outcome State Fault Refusal :=
  .next (s.modTurnCtx (fun x => { x with upd := { x.upd with att := none } }))

/-! ## Acceptance (R334, R336) -/

/-- The MEM of a buffer address (R253). -/
def State.memAt (s : State) (a : Nat) : Nat :=
  let bid := a / 2 ^ 40
  memOf (s.buf bid) bid (a % 2 ^ 40)

/-- The bins a MEM holds. -/
def State.binsOn (s : State) (m : Nat) : Nat := (s.bins.filter (fun p => s.memAt p.1 == m)).length

/-- The bins a region holds across all MEMs. -/
def State.binsOf (s : State) (k : Nat) : Nat := (s.bins.filter (fun p => p.2.region == k)).length

/-- The caps that a new bin of a region on a MEM counts against, each as occupancy and cap (R336): the quotas of its RCB path in
units of 64 entries (R358), the region's own quota in units of 4 KiB of 64-byte entries, and the bin store of its MEM. -/
def State.binCaps (s : State) (k m : Nat) : List (Nat × Nat) :=
  let r := s.region k
  let path := (s.path r.orcb).filter (fun i => !(s.rcb i).inherits 1)
  path.map (fun i => ((s.rcb i).binused.toNat, (s.rcb i).binq.toNat * 64))
    ++ (if r.rq = 0 then [] else [(s.binsOf k, r.rq.toNat * 64)]) ++ [(s.binsOn m, 524288)]

/-- Whether occupancy stands above 90 % of a cap. -/
def above90 (p : Nat × Nat) : Bool := decide (p.1 * 10 > p.2 * 9)

/-- Whether a pair that would create a new bin of a no-spill region is held (R336). -/
def State.pairHeld (s : State) (p : UPair) : Bool :=
  (s.region p.region).nosp && (s.bins.find p.addr).isNone &&
    (s.binCaps p.region (s.memAt p.addr)).any above90

/-- A bin spilled (R336): applied before its time, which its region counts, saturating at 2^32 - 1. -/
def State.spillBin (s : State) (a : Nat) : State :=
  match s.bins.find a with
  | none => s
  | some b =>
    let t := s.applyBin a
    let r := t.region b.region
    { t with regions := t.regions.set b.region { r with spills := if r.spills.toNat = 2 ^ 32 - 1 then r.spills else r.spills + 1 } }

/-- Of the bins that may be spilled under a test, the one updated least recently. -/
def oldestBin (ok : Nat × Bin → Bool) : NMap Bin → Option (Nat × Bin)
  | [] => none
  | p :: r =>
    match oldestBin ok r with
    | none => if ok p then some p else none
    | some q => if ok p && decide (p.2.stamp ≤ q.2.stamp) then some p else some q

/-- Spills under one cap, until its occupancy is below 75 % or nothing may be spilled: occ reads the occupancy and ok tells which
bins count against the cap. The fuel is the number of bins. -/
def State.spillUntil (s : State) (cap : Nat) (occ : State → Nat) (ok : State → Nat × Bin → Bool) : Nat → State
  | 0 => s
  | n + 1 =>
    if occ s * 4 < cap * 3 then s
    else
      match oldestBin (ok s) s.bins with
      | none => s
      | some p => (s.spillBin p.1).spillUntil cap occ ok n

/-- Spills under one cap if its occupancy stands above 90 % of it. -/
def State.spillCap (s : State) (cap : Nat) (occ : State → Nat) (counts : State → Nat × Bin → Bool) : State :=
  if above90 (occ s, cap) then
    s.spillUntil cap occ (fun t p => counts t p && !(t.region p.2.region).nosp) s.bins.length
  else s

/-- Spills under every cap that a region's bins on a MEM count against. -/
def State.spillFor (s : State) (k m : Nat) : State :=
  let r := s.region k
  let path := (s.path r.orcb).filter (fun i => !(s.rcb i).inherits 1)
  let t := path.foldl (fun t i =>
    t.spillCap ((t.rcb i).binq.toNat * 64) (fun u => (u.rcb i).binused.toNat)
      (fun u p => (u.path (u.region p.2.region).orcb).contains i)) s
  let t := if r.rq = 0 then t
    else t.spillCap (r.rq.toNat * 64) (fun u => u.binsOf k) (fun _ p => p.2.region == k)
  t.spillCap 524288 (fun u => u.binsOn m) (fun u p => u.memAt p.1 == m)

/-- A pair binned at its shutter (R334): a full bin is applied first and starts again; a new bin is counted and may start
spilling. -/
def State.binPair (s : State) (p : UPair) : State :=
  let r := s.region p.region
  let t := match s.bins.find p.addr with
    | some b => if b.count ≥ 2 ^ 40 then s.applyBin p.addr else s
    | none => s
  match t.bins.find p.addr with
  | some b => { t with bins := t.bins.set p.addr (b.take p.val.toNat t.stamp), stamp := t.stamp + 1, written := p.addr :: t.written }
  | none =>
    let ids := t.setters 1 (t.path r.orcb)
    let b := { (Bin.fresh p.region r.uop).take p.val.toNat t.stamp with charged := ids }
    let u := { t with bins := t.bins.set p.addr b, stamp := t.stamp + 1, written := p.addr :: t.written }
    let u := u.countBins ids (fun x => x + 1)
    u.spillFor p.region (u.memAt p.addr)

/-- The stream without its first pair. -/
def dropPair : List (List UPair) → List (List UPair)
  | [] => []
  | [] :: r => dropPair r
  | [_] :: r => r
  | (_ :: ps) :: r => ps :: r

/-- The first pair of a stream. -/
def firstPair : List (List UPair) → Option UPair
  | [] => none
  | [] :: r => firstPair r
  | (p :: _) :: _ => some p

/-- Of entries with pairs waiting, the first whose first pair is not held: that pair, and the entries without it. -/
def State.takePair (s : State) : List ExecEnt → Option (UPair × List ExecEnt)
  | [] => none
  | x :: xs =>
    match x.pairs with
    | p :: ps => if s.pairHeld p then (s.takePair xs).map (fun r => (r.1, x :: r.2)) else some (p, { x with pairs := ps } :: xs)
    | [] => (s.takePair xs).map (fun r => (r.1, x :: r.2))

/-- A pair that an MSTORE of an array sends (R319) accepted: of the entry in execution first, else of a stopped one. -/
def State.acceptArray (s : State) (e : Nat) : State :=
  let x := s.eng e
  match x.cur.bind (fun c => s.takePair [c]) with
  | some (p, c :: _) => let t := s.binPair p; t.setEng e { t.eng e with cur := some c }
  | _ =>
    match s.takePair x.saved with
    | some (p, l) => let t := s.binPair p; t.setEng e { t.eng e with saved := l }
    | none => s

/-- PAIR_ACCEPT (R319, R334, R336): the first pair of the stream of the turn's strand, or of the turn's engine when that is an
array, is accepted into its bin, unless it is held; a strand's UPC falls. -/
def execPairAccept (s : State) : Host.Outcome State Fault Refusal :=
  let n := s.turn.core
  let crew := s.turn.crew
  if 128 ≤ s.turn.engine then .next (s.acceptArray s.turn.engine)
  else
    match s.strand n crew with
    | none => .next s
    | some x =>
      match firstPair x.upd.entries with
      | none => .next s
      | some p =>
        if s.pairHeld p then .next s
        else
          .next ((s.binPair p).modStrand n crew (fun y =>
            { y with upd := { y.upd with entries := dropPair y.upd.entries }, upc := dec16 y.upc }))

end Sys2Proof.Machine
end

