-- ==== Sys2Proof/Machine/Engine.lean ====
section
/-! DEFINITION. What every engine shares: naming, the entry in execution, its capability checks, its faults and its completion
(R46, R61, R63, R124, R296, R299), and the launch queues' accepting and completing of packets (R285, R286, R292). -/

namespace Sys2Proof.Machine

/-! ## Naming -/

/-- The OPC class an engine's queue accepts (R123): 0 copy, 1 matrix, 2 walker, 3 sort, 4 shutter, 5 signal. DESIGN CHOICE (log 9). -/
def engClass (e : Nat) : Nat :=
  if e < 128 then 0 else if e < 256 then 1 else if e < 320 then 2 else if e < 384 then 3 else if e < 392 then 4 else 5

/-- The site of an engine (R63 ESITE). DESIGN CHOICE (log 9). -/
def engSite (e : Nat) : Nat :=
  if e < 128 then 16 + e / 16
  else if e < 256 then (e - 128) / 8
  else if e < 320 then (e - 256) / 4
  else if e < 384 then (e - 320) / 4
  else if e < 392 then 16 + (e - 384)
  else 16 + (e - 392)

/-- The number of an engine within its site. DESIGN CHOICE (log 9). -/
def engNum (e : Nat) : Nat :=
  if e < 128 then e % 16 else if e < 256 then (e - 128) % 8 else if e < 384 then e % 4 else 0

/-- The ENG field of a fault record (R63). -/
def engField (e : Nat) : Nat := engClass e * 2 ^ 5 + engNum e

/-! ## The entry in execution -/

/-- An entry about to be run. -/
def Act.ofEnt (q : QEnt) (idx tick : Nat) : Act := { ent := q, idx := idx, prog := 0, checked := false, start := tick, aux := [] }

/-- An entry popped. -/
def ExecEnt.ofEnt (q : QEnt) (idx tick : Nat) : ExecEnt :=
  { main := Act.ofEnt q idx tick, sub := none, opens := [], posted := 0, ended := false, window := false, done := false,
    pairs := [], image := none }

/-- The entry an engine runs now: the word a CHAIN has fetched, or the entry itself. -/
def ExecEnt.act (x : ExecEnt) : Act := x.sub.getD x.main

/-- The entry an engine runs now. -/
def State.active (s : State) (e : Nat) : Option Act := (s.eng e).cur.map ExecEnt.act

/-- The entry an engine runs changed. -/
def ExecEnt.modAct (x : ExecEnt) (f : Act → Act) : ExecEnt :=
  match x.sub with
  | some a => { x with sub := some (f a) }
  | none => { x with main := f x.main }

/-- The entry in execution changed. -/
def State.modCur (s : State) (e : Nat) (f : ExecEnt → ExecEnt) : State :=
  let x := s.eng e
  s.setEng e { x with cur := x.cur.map f }

/-- The node that an entry belongs to (R46). -/
def State.entNode (_ : State) (q : QEnt) : Nat := q.node

/-- The check of R257 for an entry: by its node, or by the hub for a COPY packet. -/
def State.entCap (s : State) (q : QEnt) (h : Handle) (off : Int) (len : Nat) (r : Right) : Option Nat :=
  match q.pkt with
  | some _ => s.hubCap q.part h off len r
  | none => s.capCheck (siteOf q.core) (s.rcbOf q.crew) (some (s.entNode q)) h off len r

/-- What stops an entry: a code, DETAIL, HANDLE and ESTAT. -/
structure EngErr where
  code : Nat
  detail : Word
  handle : Handle
  estat : Nat
  deriving DecidableEq, Repr

/-- An error with a code and DETAIL. -/
def EngErr.of (code : Nat) (detail : Nat) (h : Handle) : EngErr :=
  { code := code, detail := BitVec.ofNat 64 detail, handle := h, estat := 0 }

/-- An ENGINE error with its ESTAT (R75). -/
def EngErr.engine (estat : Nat) : EngErr := { code := cENGINE, detail := 0, handle := 0, estat := estat }

/-- ILLEGAL_CMD for a word (R124). -/
def EngErr.illegal (w : Bits256) : EngErr :=
  { code := cILLEGAL_CMD, detail := BitVec.ofNat 64 (fld w 192 64), handle := 0, estat := 0 }

/-- The check of one access of an entry; DETAIL is the failing offset. -/
def State.entErr (s : State) (q : QEnt) (h : Handle) (off : Int) (len : Nat) (r : Right) : Option EngErr :=
  (s.entCap q h off len r).map (fun c =>
    { code := c, detail := BitVec.ofInt 64 off, handle := h, estat := 0 })

/-- The bounds of one access of an entry through a handle that its check at pop has passed (R256, R257, R324); a handle of 0, which that check
leaves out, is CAP_GEN. -/
def State.boundsErr (s : State) (q : QEnt) (h : Handle) (off : Nat) (len : Nat) : Option EngErr :=
  if h = 0 then some (EngErr.of cCAP_GEN off h)
  else if viewLen (hView h) (s.entryAt (siteOf q.core) (hBid h)).size < off + len then some (EngErr.of cCAP_BOUNDS off h)
  else none

/-- The first error of a list of checks. DEDUCED (log 35). -/
def firstErr : List (Option EngErr) → Option EngErr
  | [] => none
  | some e :: _ => some e
  | none :: r => firstErr r

/-- The first error of rows of one length at exact offsets (R299). Only the first and last rows can fail first. DEDUCED (log 35). -/
def State.rowsErr (s : State) (q : QEnt) (h : Handle) (off pitch : Int) (rows len : Nat) (r : Right) : Option EngErr :=
  match s.entErr q h off len r with
  | some e => some e
  | none =>
    match s.entErr q h (off + pitch * ((rows - 1 : Nat) : Int)) len r with
    | none => none
    | some _ =>
      -- the first failing row: rows before it lie in the view
      let len' : Int := viewLen (hView h) (s.entryAt (siteOf q.core) (hBid h)).size
      let k : Int := if pitch > 0 then (len' - len - off) / pitch + 1 else if pitch < 0 then off / (-pitch) + 1 else 0
      s.entErr q h (off + pitch * k) len r

/-! ## Launch packets -/

/-- Packets a queue can still accept (R286). -/
def LaunchQ.free (q : LaunchQ) : Nat := 64 - q.pkts.length

/-- A packet accepted: it takes the next sequence number (R285). -/
def LaunchQ.accept (q : LaunchQ) (bits : Bits512) : LaunchQ :=
  { q with pkts := q.pkts ++ [{ seq := q.seq.toNat, bits := bits, started := none, inst := none, hs := [], ending := none }], seq := q.seq + 1 }

/-- The handle in a launch export table entry; an empty index names none (R288). -/
def Part.exportAt (p : Part) (i : Nat) : Handle := if 0 < i ∧ i < 4096 then p.exports.get i 0 else 0

/-- A 64-bit signal changed at its MEM as one step (R306, R374): an add modulo 2^64, or a set. -/
def State.signalPut (s : State) (a : Nat) (set : Bool) (v : Word) : State :=
  let t := s.openAccess a 8
  let old : Word := BitVec.ofNat 64 (ofBytes (Memory.readN t.mem a 8))
  t.writeBufBytes a (toBytes (if set then v else old + v).toNat 8)

/-- The completion signal of a queue changed, where its buffer and offset allow it (R363). -/
def State.completionSignal (s : State) (p q : Nat) (set : Bool) (v : Word) : State :=
  let x := s.part p
  let d := x.queue q
  let h := x.exportAt d.csx.toNat
  if h = 0 ∨ d.csoff.toNat % 8 ≠ 0 ∨ (s.hubCap p h (d.csoff.toNat : Int) 8 .w).isSome ∨ windowBid ≤ hBid h then s
  else s.signalPut (hAddr h d.csoff.toNat) set v

/-- A packet's completion: its STAT entry, MSI-X vector 3, and the completion signal while the queue is RUNNING (R286, R292,
R408). -/
def State.completePacket (s : State) (p q seq code : Nat) : State :=
  let d := (s.part p).queue q
  let t := s.modPart p (fun x =>
    { x with
      msix := x.msix ||| 8
      queues := x.queues.set q
        { d with pkts := d.pkts.filter (fun k => k.seq != seq)
                 stat := d.stat.set (seq % 64) (BitVec.ofNat 64 (seq * 65536 + code)) } })
  if d.st = .running then t.completionSignal p q false 1 else t

/-! ## Faults of entries (R60, R61) -/

/-- The fault of an entry: SRC 1, with what R63 records of it. -/
def engFault (e : Nat) (a : Act) (base : Nat) (r : EngErr) : FaultInfo :=
  { code := r.code, src := 1, more := false, slot := 0, bidx := 0, detail := r.detail, handle := r.handle, estat := r.estat,
    esite := engSite e, eng := engField e, cidxq := (a.idx - base) % 65536, pidxv := a.prog }

/-- A turn for an entry. -/
def Turn.forEntry (e : Nat) (q : QEnt) : Turn :=
  { Turn.zero with core := q.core, crew := q.crew, site := engSite e, engine := e, part := q.part }

/-- The landing of an ATOM's old value in its slot, once (R304, R366). -/
def State.landAtom (s : State) (q : QEnt) (v : Word) (st : SlotSt) : State :=
  if isRetAtom q.word ∧ q.sill ≠ 0 ∧ q.chain.isNone then
    s.modStrand q.core q.crew (fun x => { x.landS (fld q.word 175 5) q.sill v st with ldc := dec16 x.ldc })
  else s

/-- An entry whose slot has landed. -/
def Act.landed (a : Act) : Act := { a with ent := { a.ent with sill := 0 } }

/-- The state of a walker that an entry leaves behind when it stops (R321). -/
def State.walkerImage (s : State) (e : Nat) : Option Walker := if engClass e = 2 then some (s.walker e) else none

/-- A walker whose entry a fault has stopped reports it (R327). -/
def State.walkerFrozen (s : State) (e : Nat) : State :=
  if engClass e = 2 then s.setWalker e { s.walker e with status := 2 } else s

/-- A walker whose entry has been skipped or discarded is idle (R65, R327). -/
def State.walkerIdle (s : State) (e : Nat) : State :=
  if engClass e = 2 then s.setWalker e { s.walker e with status := 0 } else s

/-- The commands whose descriptions state no interruption point (R46): ATOM, SIGOP, XFEN, MZERO, MEPI, WLOAD, WSTAT, UOPEN, UQUOTA, USPILL,
SIGADD and SIGSET. -/
def noPoint (opc : Nat) : Bool := [0x04, 0x06, 0x07, 0x24, 0x26, 0x40, 0x42, 0x80, 0x82, 0x83, 0xA0, 0xA1].contains opc

/-- Whether an entry is inside a unit: a COLL with a unit in flight (R308), or a load with a row's requests to shared scratch open (R315). -/
def ExecEnt.inUnit (c : ExecEnt) : Bool := [0x08, 0x21, 0x22].contains (opcOf c.act.ent.word) && !c.act.aux.isEmpty

/-- Whether a CHAIN holds a word of another class that it has not pushed yet (R305). -/
def ExecEnt.pushing (c : ExecEnt) : Bool := c.sub.any (fun a => opcOf a.ent.word / 32 != 0)

/-- Whether an entry in execution may stop between its present unit and the next (R46, R66). -/
def ExecEnt.stoppable (c : ExecEnt) : Bool :=
  !c.done && (c.pushing || (!c.inUnit && (!noPoint (opcOf c.act.ent.word) || c.act.ent.pkt.isSome)))

/-- Whether an entry in execution belongs to a crew that an abort has ended (R65): it goes on to its next interruption point, or to its
completion. -/
def State.orphan (s : State) (q : QEnt) : Bool := q.pkt.isNone && (s.crews.find q.crew).isNone

/-- An orphan entry off its engine at its interruption point. -/
def State.dropOrphan (s : State) (e : Nat) : State :=
  ({ s with ssm := s.ssm.filter (fun r => r.core != 4096 + e), ssmGroups := s.ssmGroups.filter (fun g => g.2.core != 4096 + e) }.setEng e
    { s.eng e with cur := none }).walkerIdle e

/-- The entry in execution put aside at an interruption point, with the walker's state beside it (R46, R321). -/
def State.setAside (s : State) (e : Nat) (c : ExecEnt) : State :=
  let x := s.eng e
  s.setEng e { x with cur := none, saved := x.saved ++ [{ c with image := s.walkerImage e }] }

/-- An entry stops on an error: its partition's entries freeze at the engine, and the fault follows (R61). A COPY packet
completes FAILED instead (R292), and the last entry of a crew that an abort has ended is dropped (R65). -/
def State.stopEntry (s : State) (e : Nat) (r : EngErr) : State :=
  let x := s.eng e
  match x.cur with
  | none => s
  | some c =>
    let a := c.act
    match a.ent.pkt with
    | some (p, q, seq) => (s.setEng e { x with cur := none }).completePacket p q seq 7
    | none =>
      if s.orphan a.ent then s.dropOrphan e
      else
      let c' := { c.modAct Act.landed with image := s.walkerImage e }
      let t := (s.setEng e
        { x with cur := none, saved := x.saved ++ [c'], frozenParts := insertNat a.ent.part x.frozenParts }).walkerFrozen e
      (t.landAtom a.ent 0 .poisoned).front [.run { Turn.forEntry e a.ent with fault := some (engFault e a (x.base.get a.ent.crew 0) r) } .fault]

/-! ## Running an entry -/

/-- What one interruption unit of an entry comes to. -/
inductive UnitRes where
  /-- the unit is done, and the entry goes on from a progress index -/
  | more (s : State) (prog : Nat)
  /-- the entry has run -/
  | done (s : State)
  /-- nothing can be done yet -/
  | wait
  | err (r : EngErr)
  /-- an error, with the state that the unit's accesses before it leave (R335) -/
  | errAt (s : State) (r : EngErr)

/-- An error with the state that the accesses before it leave. -/
abbrev ErrAt := EngErr × State

/-- A unit that ends in an error, its accesses made. -/
def UnitRes.fail (x : ErrAt) : UnitRes := .errAt x.2 x.1

/-- The entry in execution has run: its completion follows (R296). -/
def State.finishEntry (s : State) (e : Nat) : State :=
  match (s.eng e).cur with
  | none => s
  | some c =>
    (s.modCur e (fun x => { x with done := true })).front [.run (Turn.forEntry e c.main.ent) .tagCompletion]

/-- What the engine of the turn carries for the entry it executes. -/
def State.carry (s : State) (l : List Nat) : State := s.modCur s.turn.engine (fun x => x.modAct (fun c => { c with aux := l }))

/-- One unit of the entry that the turn's engine executes: its checks at pop first, then the unit. noop says that a zero length
or count completes it at once without a check (R299). DESIGN CHOICE (log 30). -/
def runEntry (noop : Bool) (chk : State → QEnt → Option EngErr) (unit : State → Act → UnitRes) (s : State) :
    Host.Outcome State Fault Refusal :=
  let e := s.turn.engine
  match s.active e with
  | none => .next s
  | some a =>
    if noop then .next (s.finishEntry e)
    else
      match (if a.checked then none else chk s a.ent) with
      | some r => .next (s.stopEntry e r)
      | none =>
        let t := s.modCur e (fun x => x.modAct (fun b => { b with checked := true }))
        match unit t a with
        | .more u p => .next (u.modCur e (fun x => x.modAct (fun b => { b with prog := p })))
        | .done u => .next (u.finishEntry e)
        | .wait => .next t
        | .err r => .next (t.stopEntry e r)
        | .errAt u r => .next (u.stopEntry e r)

/-! ## Memory as engines reach it -/

/-- Whether an engine's write to n bytes must wait: an extent is migrating or held in recalibration (R278, R423).
DESIGN CHOICE (log 31). -/
def State.writeWaits (s : State) (a n : Nat) : Bool :=
  (granules a n).any (fun g =>
    match (s.ext (s.extAt (g * 64))).st with
    | .migrating => true
    | .recal => true
    | _ => false)

/-- An engine's write of bytes; what a lost extent or a fenced MEM holds is not changed (log 4). DESIGN CHOICE (log 31). -/
def State.engWrite (s : State) (a : Nat) (bs : List Byte) : State :=
  let t := s.openAccess a bs.length
  let dead : Nat → Bool := fun x =>
    let k := t.extAt x
    (t.ext k).st == .lost || !t.memServes (extMem k)
  let cs := Memory.cellsAt a bs
  if (granules a bs.length).any (fun g => dead (g * 64)) then t.writeBufRaw (cs.filter (fun c => !dead c.1))
  else t.writeBufRaw cs

/-- An engine's read of bytes, or POISON with the offset of the access (R231, R299), in either case with the state that the read
leaves: its access has applied the bins of its granules (R335). -/
def State.engRead (s : State) (h : Handle) (off n : Nat) : Except ErrAt (List Byte × State) :=
  let r := s.readBuf (hAddr h off) n
  if r.1.2 then .error (EngErr.of cPOISON off h, r.2) else .ok (r.1.1, r.2)

/-- The pending bins of all that a handle's view holds applied, for a reader of the whole view (R335). -/
def State.settleView (s : State) (h : Handle) : State :=
  if h = 0 ∨ windowBid ≤ hBid h then s else s.applyBins (hAddr h 0) (viewLen (hView h) (s.buf (hBid h)).size)

/-! ## Completion (R296) -/

/-- An event record in a partition's event ring (R408): it overwrites the oldest when full, which EVOVF counts. -/
def Part.event (p : Part) (w0 w1 : Word) : Part :=
  let full := decide (256 ≤ p.events.length)
  { p with
    events := (if full then p.events.tail else p.events) ++ [(w0, w1)]
    evcount := p.evcount + 1
    evovf := if full && decide (p.evovf.toNat < 2 ^ 32 - 1) then p.evovf + 1 else p.evovf
    msix := p.msix ||| 2 }

/-- The effects of a completion at the pushing strand and its partition (R296). -/
def State.completeWord (s : State) (q : QEnt) : State :=
  let tag := fld q.word 238 6
  let t := s.modStrand q.core q.crew (fun x =>
    let y := if q.word.getLsbD 247 then { x with tags := putFld x.tags tag 1 1 } else x
    if opcOf q.word / 32 = 0 then { y with cpc := dec16 y.cpc } else { y with tlc := dec16 y.tlc })
  if q.word.getLsbD 245 then
    t.modPart q.part (fun p =>
      p.event (BitVec.ofNat 64 (q.core % 256 + tag * 2 ^ 8 + s.entNode q % 65536 * 2 ^ 16)) (BitVec.ofNat 64 s.tick))
  else t

/-- The share of an array that a partition has. -/
def arrayKey (e part : Nat) : Nat := (e - 128) * 64 + part

/-- An array's share. -/
def State.arrayShare (s : State) (k : Nat) : ArrayShare := s.arrays.get k ArrayShare.zero

/-- The end of a lease (R312). -/
def ArrayShare.endLease (a : ArrayShare) : ArrayShare :=
  match a.lhold with
  | some c => { a with lhold := none, run := 0, last := c }
  | none => a

/-- A counted command completes: RUN falls, and the lease ends at 0 (R312). -/
def ArrayShare.count (a : ArrayShare) : ArrayShare :=
  if a.run ≤ 1 then a.endLease else { a with run := a.run - 1 }

/-- Whether an OPC is a counted matrix command (R312): MLOADW, MLOADA, MMUL, MZERO, MSTORE and MEPI. -/
def counted (opc : Nat) : Bool := decide (0x21 ≤ opc) && decide (opc ≤ 0x26)

/-- A completed entry's effect on its array's lease. -/
def State.countLease (s : State) (e : Nat) (q : QEnt) : State :=
  if engClass e = 1 ∧ counted (opcOf q.word) then
    let k := arrayKey e q.part
    { s with arrays := s.arrays.set k (s.arrayShare k).count }
  else s

/-- The list buffer of a CHAIN: the handle that LENT names in its pusher's handle table (R305). -/
def State.tableHandle (s : State) (q : QEnt) (i : Nat) : Option Handle :=
  let inst := s.inst (s.rcbOf q.crew)
  if i ≤ inst.nent then some (inst.htab.get i 0) else none

/-- The posts of a CHAIN in entry order (R305): one for each entry that is complete with all before it. fuel bounds them. -/
def State.chainPosts (s : State) (q : QEnt) (prog : Nat) (opens : List Nat) : Nat → Nat → Nat × State
  | 0, posted => (posted, s)
  | n + 1, posted =>
    if posted < prog ∧ !opens.contains posted then
      let t :=
        if q.word.getLsbD 35 then
          match s.tableHandle q (fld q.word 37 11) with
          | some h => s.signalPut (hAddr h (fld q.word 48 48)) false 1
          | none => s
        else s
      t.chainPosts q prog opens n (posted + 1)
    else (posted, s)

/-- The words of a CHAIN that have completed are posted, and the CHAIN itself has run once its last word has (R305). -/
def State.chainAdvance (s : State) (e : Nat) : State :=
  match (s.eng e).cur with
  | none => s
  | some c =>
    if opcOf c.main.ent.word ≠ 5 ∨ c.main.ent.pkt.isSome then s
    else
    let prog := if c.sub.isSome then c.main.prog - 1 else c.main.prog
    let r := s.chainPosts c.main.ent prog c.opens (prog + 1) c.posted
    let t := r.2.modCur e (fun x => { x with posted := r.1 })
    if c.ended ∧ c.sub.isNone ∧ c.opens = [] then t.finishEntry e else t

/-- A word that a CHAIN pushed to another engine has completed. -/
def State.chainWordDone (s : State) (q : QEnt) : State :=
  match q.chain with
  | none => s
  | some (e, i) =>
    let drop : ExecEnt → ExecEnt := fun x =>
      if x.main.ent.crew = q.crew ∧ x.main.ent.core = q.core then { x with opens := x.opens.filter (fun k => k != i) } else x
    let x := s.eng e
    (s.setEng e { x with cur := x.cur.map drop, saved := x.saved.map drop }).chainAdvance e

/-- An entry completed and off its engine: for a CHAIN's word that ran on the CHAIN's engine, the CHAIN goes on. -/
def State.completeEntry (s : State) (e : Nat) : State :=
  let x := s.eng e
  match x.cur with
  | none => s
  | some c =>
    match c.sub with
    | some a =>
      ((s.modCur e (fun y => { y with sub := none, done := false })).completeWord a.ent).chainAdvance e
    | none =>
      let q := c.main.ent
      let t := s.setEng e { x with cur := none }
      match q.pkt with
      | some (p, k, seq) => t.completePacket p k seq 0
      | none => ((t.completeWord q).countLease e q).chainWordDone q

/-- TAG_COMPLETION (R296): the entry of the turn's engine that has run completes. -/
def execTagCompletion (s : State) : Host.Outcome State Fault Refusal :=
  match (s.eng s.turn.engine).cur with
  | some c => if c.done then .next (s.completeEntry s.turn.engine) else .next s
  | none => .next s

end Sys2Proof.Machine
end

