-- ==== Sys2Proof/Machine/Copy.lean ====
section
/-! DEFINITION. The copy-class commands (R287, R299-R308) and WINDOW_COPY_ENQUEUE. -/

namespace Sys2Proof.Machine

/-- Whether a handle is a window handle (R287). -/
def isWindow (h : Handle) : Bool := decide (windowBid ≤ hBid h)

/-- What a copy command aimed at a window handle raises unless its geometry is good (R287). -/
def windowGeom (q : QEnt) (good : Bool) : Option EngErr := if isWindow q.h1 ∧ good = false then some (EngErr.engine 0x102) else none

/-- A copy command that no geometry lets write a window handle (R287, R296). DESIGN CHOICE (log 39). -/
def noWindow (q : QEnt) : Option EngErr := windowGeom q false

/-- A signed 32-bit pitch. -/
def pitch32 (p : BitVec 32) : Int := p.toInt

/-! ## COPY (R300) -/

/-- COPY's checks at pop: rows of the source for R and of the destination for W; a window takes one row of 64 bytes at 0. -/
def copyChk (b : CopyBody) (s : State) (q : QEnt) : Option EngErr :=
  let src := s.rowsErr q q.h0 b.soff.toNat (pitch32 b.spitch) b.nrows.toNat b.len.toNat .r
  let dst := s.rowsErr q q.h1 b.doff.toNat (pitch32 b.dpitch) b.nrows.toNat b.len.toNat .w
  firstErr [windowGeom q (b.len.toNat == 64 && b.nrows.toNat == 1 && b.doff.toNat == 0), src, dst]

/-- The launch queue of a window handle: its partition and number. -/
def windowQueue (h : Handle) : Nat × Nat := ((hBid h - windowBid) / 16, (hBid h - windowBid) % 16)

/-- A packet given to a launch queue, if it has room. -/
def State.enqueue (s : State) (h : Handle) (bits : Bits512) : Option State :=
  let w := windowQueue h
  let d := (s.part w.1).queue w.2
  if d.free = 0 then none else some (s.modQueue w.1 w.2 (fun x => x.accept bits))

/-- A row read at one exact offset of H0 and written at another of H1. DESIGN CHOICE (log 30). -/
def copyRow (s : State) (q : QEnt) (so d : Int) (n : Nat) : Option (Except ErrAt State) :=
  let da := hAddr q.h1 d.toNat
  if s.writeWaits da n then none
  else
    match s.engRead q.h0 so.toNat n with
    | .error r => some (.error r)
    | .ok p => some (.ok (p.2.engWrite da p.1))

/-- One try of a copy to give the packet that it reads at an offset to the launch queue of its window handle: while the queue is full the
engine holds the entry (R287). -/
def windowTry (e soff : Nat) (s : State) (a : Act) : UnitRes :=
  match s.engRead a.ent.h0 soff 64 with
  | .error x => .fail x
  | .ok p =>
    match p.2.enqueue a.ent.h1 (BitVec.ofNat 512 (ofBytes p.1)) with
    | some t => .done t
    | none => .more (p.2.modCur e (fun x => { x with window := true })) a.prog

/-- One row of COPY, or one try to give its packet to a launch queue. -/
def copyUnit (e : Nat) (b : CopyBody) (s : State) (a : Act) : UnitRes :=
  let r := a.prog
  let q := a.ent
  if r ≥ b.nrows.toNat then .done s
  else if isWindow q.h1 then windowTry e b.soff.toNat s a
  else
    match copyRow s q (b.soff.toNat + pitch32 b.spitch * r) (b.doff.toNat + pitch32 b.dpitch * r) b.len.toNat with
    | none => .wait
    | some (.error x) => .fail x
    | some (.ok t) => if r + 1 = b.nrows.toNat then .done t else .more t (r + 1)

/-- COPY (R300). -/
def execCopy (_ : TcHdr) (b : CopyBody) (s : State) : Host.Outcome State Fault Refusal :=
  runEntry (b.len == 0 || b.nrows == 0) (copyChk b) (copyUnit s.turn.engine b) s

/-- WINDOW_COPY_ENQUEUE (R287): the packet that the turn's engine holds for a full launch queue is accepted once there is room. -/
def execWindowCopyEnqueue (s : State) : Host.Outcome State Fault Refusal :=
  let e := s.turn.engine
  match (s.eng e).cur with
  | none => .next s
  | some x =>
    if x.window && !x.done then
      let q := x.act.ent
      (match s.engRead q.h0 (fld q.word 184 48) 64 with
       | .error r => .next (r.2.stopEntry e r.1)
       | .ok p =>
         match p.2.enqueue q.h1 (BitVec.ofNat 512 (ofBytes p.1)) with
         | some t => .next ((t.modCur e (fun y => { y with window := false })).finishEntry e)
         | none => .next s)
    else .next s

/-! ## COPYX (R301) -/

/-- COPYX's checks at pop: the index list and the side that is not indexed. -/
def copyxChk (b : CopyxBody) (s : State) (q : QEnt) : Option EngErr :=
  let n := b.nidx.toNat
  let len := b.len.toNat
  match s.tableHandle q b.xent.toNat with
  | none => some (EngErr.of cCAP_BOUNDS b.xent.toNat 0)
  | some hx =>
    firstErr [noWindow q, s.rowsErr q hx b.ioff.toNat 4 n 4 .r,
      if b.sct then s.rowsErr q q.h0 b.soff.toNat len n len .r else s.rowsErr q q.h1 b.doff.toNat len n len .w]

/-- One index of COPYX. -/
def copyxUnit (b : CopyxBody) (s : State) (a : Act) : UnitRes :=
  let r := a.prog
  let q := a.ent
  let len := b.len.toNat
  let next : State → UnitRes := fun t => if r + 1 ≥ b.nidx.toNat then .done t else .more t (r + 1)
  match s.tableHandle q b.xent.toNat with
  | none => .err (EngErr.of cCAP_BOUNDS b.xent.toNat 0)
  | some hx =>
    match s.engRead hx (b.ioff.toNat + 4 * r) 4 with
    | .error x => .fail x
    | .ok p =>
      let x := ofBytes p.1
      let t := p.2
      let so := if b.sct then b.soff.toNat + r * len else b.soff.toNat + x * b.pitch.toNat
      let d := if b.sct then b.doff.toNat + x * b.pitch.toNat else b.doff.toNat + r * len
      let indexed := if b.sct then t.entErr q q.h1 d len .w else t.entErr q q.h0 so len .r
      let move : UnitRes := match copyRow t q so d len with
        | none => .wait
        | some (.error y) => .fail y
        | some (.ok u) => next u
      match indexed with
      | none => move
      | some y =>
        if y.code = cCAP_BOUNDS ∧ b.skip then
          if b.sct then next t
          else if t.writeWaits (hAddr q.h1 d) len then .wait
          else next (t.engWrite (hAddr q.h1 d) (List.replicate len 0))
        else .errAt t y

/-- COPYX (R301). -/
def execCopyx (_ : TcHdr) (b : CopyxBody) (s : State) : Host.Outcome State Fault Refusal :=
  runEntry (b.len == 0 || b.nidx == 0) (copyxChk b) (copyxUnit b) s

/-! ## FILL (R302) -/

/-- FILL's check. -/
def fillChk (b : FillBody) (s : State) (q : QEnt) : Option EngErr :=
  firstErr [noWindow q, s.entErr q q.h1 b.doff.toNat b.len.toNat .w]

/-- Byte i of a filled range. -/
def fillByte (b : FillBody) (i : Nat) : Byte := BitVec.ofNat 8 (fld b.pat (8 * (i % 2 ^ b.pw.toNat)) 8)

/-- One 64 KiB unit of FILL. -/
def fillUnit (b : FillBody) (s : State) (a : Act) : UnitRes :=
  let lo := a.prog * 65536
  let n := min 65536 (b.len.toNat - lo)
  let d := hAddr a.ent.h1 (b.doff.toNat + lo)
  if s.writeWaits d n then .wait
  else
    let t := s.engWrite d ((List.range n).map (fun i => fillByte b (lo + i)))
    if lo + 65536 ≥ b.len.toNat then .done t else .more t (a.prog + 1)

/-- FILL (R302). -/
def execFill (_ : TcHdr) (b : FillBody) (s : State) : Host.Outcome State Fault Refusal :=
  runEntry (b.len == 0) (fillChk b) (fillUnit b) s

/-! ## ACCW (R303) -/

/-- The rounding modes of ACCW and MSTORE, where DIT, DYN and 7 act as RNE. -/
def plainMode (rnd : Nat) : RMode := modeOf (if rnd < 5 then rnd else 0) 0 false 0 0

/-- One element of ACCW: destination d combined with source x. -/
def accElem (t : EType) (op : Nat) (md : RMode) (sat : Bool) (d x : Nat) : Nat :=
  match t with
  | .fp f =>
    if op = 0 then (f.deliver md sat (exactSum md [(f.decode d).exact, (f.decode x).exact])).1
    else (fpMinMax f (op == 2) d x).1
  | .int sg b =>
    if op = 0 then reduceInt sg b sat (readInt sg b d + readInt sg b x)
    else intMinMax sg b (op == 2) d x
  | .bfp => d

/-- A row of bytes combined element by element. -/
def accRow (t : EType) (op : Nat) (md : RMode) (sat : Bool) (d x : List Byte) : List Byte :=
  let w := t.width / 8
  (List.range (d.length / w)).flatMap (fun i =>
    toBytes (accElem t op md sat (ofBytes ((d.drop (i * w)).take w)) (ofBytes ((x.drop (i * w)).take w))) w)

/-- ACCW's checks. -/
def accwChk (b : AccwBody) (s : State) (q : QEnt) : Option EngErr :=
  firstErr [noWindow q, s.rowsErr q q.h0 b.soff.toNat (pitch32 b.spitch) b.nrows.toNat b.len.toNat .r,
    s.rowsErr q q.h1 b.doff.toNat (pitch32 b.dpitch) b.nrows.toNat b.len.toNat .w]

/-- One row of ACCW. -/
def accwUnit (b : AccwBody) (s : State) (a : Act) : UnitRes :=
  let r := a.prog
  let q := a.ent
  let so := ((b.soff.toNat : Int) + pitch32 b.spitch * r).toNat
  let d := ((b.doff.toNat : Int) + pitch32 b.dpitch * r).toNat
  let n := b.len.toNat
  if s.writeWaits (hAddr q.h1 d) n then .wait
  else
    match s.engRead q.h0 so n with
    | .error x => .fail x
    | .ok p =>
      match p.2.engRead q.h1 d n with
      | .error x => .fail x
      | .ok p2 =>
        let t := p2.2.engWrite (hAddr q.h1 d)
          (accRow (etypeOf b.type.toNat) b.op.toNat (plainMode b.rnd.toNat) b.sat p2.1 p.1)
        if r + 1 ≥ b.nrows.toNat then .done t else .more t (r + 1)

/-- ACCW (R303). -/
def execAccw (_ : TcHdr) (b : AccwBody) (s : State) : Host.Outcome State Fault Refusal :=
  runEntry (b.len == 0 || b.nrows == 0) (accwChk b) (accwUnit b) s

/-! ## ATOM (R304) -/

/-- The bytes an ATOM reads: its operand, or the pair of FADDL. -/
def atomSize (b : AtomBody) : Nat := if b.sz ∨ b.aop = 3 then 8 else 4

/-- ATOM's checks: rights R and W. -/
def atomChk (b : AtomBody) (s : State) (q : QEnt) : Option EngErr :=
  firstErr [noWindow q, s.entErr q q.h1 b.doff.toNat (atomSize b) .r, s.entErr q q.h1 b.doff.toNat (atomSize b) .w]

/-- The new value of the word and the value that lands (R304). DEDUCED (log 63). -/
def atomStep (b : AtomBody) (w pair : Nat) : Nat × Nat :=
  let old := pair % 2 ^ w
  let op := b.opnd.toNat % 2 ^ w
  let cmp := b.cmpv.toNat % 2 ^ w
  match b.aop.toNat with
  | 0 => (if old + op ≤ cmp then old + op else old, old)
  | 1 => (if old ≥ cmp then 0 else old + 1, old)
  | 2 => (if old > 0 then old - 1 else old, old)
  | 3 => (if old + op ≤ pair / 2 ^ 32 then old + op else old, pair)
  | 4 => (op, old)
  | _ => (if old = cmp then op else old, old)

/-- ATOM's one step. -/
def atomUnit (b : AtomBody) (s : State) (a : Act) : UnitRes :=
  let q := a.ent
  let w := if b.sz then 64 else 32
  let d := hAddr q.h1 b.doff.toNat
  if s.writeWaits d (atomSize b) then .wait
  else
    match s.engRead q.h1 b.doff.toNat (atomSize b) with
    | .error x => .fail x
    | .ok p =>
      let r := atomStep b w (ofBytes p.1)
      .done ((p.2.engWrite d (toBytes r.1 (w / 8))).landAtom q (BitVec.ofNat 64 r.2) .full)

/-- ATOM (R304). -/
def execAtom (_ : TcHdr) (b : AtomBody) (s : State) : Host.Outcome State Fault Refusal :=
  runEntry false (atomChk b) (atomUnit b) s

/-! ## CHAIN (R305) -/

/-- The offset of entry i of a list. DEDUCED (log 36). -/
def chainOff (b : ChainBody) (i : Nat) : Nat :=
  b.loff.toNat + 32 * (if b.rlen = 0 then i else i % b.rlen.toNat)

/-- CHAIN's checks at pop: its list buffer's signals, and the entries that NENT names. DEDUCED (log 36). -/
def chainChk (b : ChainBody) (s : State) (q : QEnt) : Option EngErr :=
  match s.tableHandle q b.lent.toNat with
  | none => some (EngErr.of cCAP_BOUNDS b.lent.toNat 0)
  | some h =>
    let n := if b.nent = 0 then 1 else if b.rlen = 0 then b.nent.toNat else min b.nent.toNat b.rlen.toNat
    firstErr [if b.wen then s.entErr q h b.woff.toNat 8 .r else none,
      if b.pen then s.entErr q h b.poff.toNat 8 .w else none,
      s.rowsErr q h b.loff.toNat 32 n 32 .r]

/-- Whether entry i may be fetched: WEN's signal has reached i + 1. -/
def chainReady (b : ChainBody) (s : State) (h : Handle) (i : Nat) : Except EngErr Bool :=
  if b.wen then
    if (s.bufPoisoned (hAddr h b.woff.toNat) 8) then .error (EngErr.of cPOISON b.woff.toNat h)
    else
      let v := (s.signalAt (hAddr h b.woff.toNat)).toInt
      if v < 0 then .error (EngErr.engine 0x101) else .ok (decide ((i : Int) + 1 ≤ v))
  else .ok true

/-- Whether a strand's counter of a word's class can rise (R366). -/
def State.countRoom (s : State) (q : QEnt) (w : Bits256) : Bool :=
  match s.strand q.core q.crew with
  | some x => if opcOf w / 32 = 0 then x.cpc != 0xFFFF else x.tlc != 0xFFFF
  | none => true

/-- The fetched word as an entry of the CHAIN's pusher. -/
def chainEnt (e : Nat) (q : QEnt) (i : Nat) (w : Bits256) (stamp : Nat) : QEnt :=
  { q with word := w, stamp := stamp, sill := 0, chain := some (e, i) }

/-- Entry i fetched. DEDUCED (log 36). -/
def chainFetch (b : ChainBody) (s : State) (e : Nat) (c : ExecEnt) (h : Handle) : State :=
  let i := c.main.prog
  let q := c.main.ent
  match s.entErr q h (chainOff b i) 32 .r with
  | some r => s.stopEntry e r
  | none =>
    match s.engRead h (chainOff b i) 32 with
    | .error r => r.2.stopEntry e r.1
    | .ok p =>
      let w : Bits256 := BitVec.ofNat 256 (ofBytes p.1)
      if opcOf w = 5 then p.2.stopEntry e (EngErr.illegal w)
      else if isRetAtom w then p.2.stopEntry e (EngErr.illegal w)
      else if !s.countRoom q w then p.2
      else
        let ends := if b.nent = 0 then !w.getLsbD 244 else decide (i + 1 = b.nent.toNat)
        let t := p.2.modStrand q.core q.crew (fun x => x.countPush w)
        { t.modCur e (fun x =>
            { x with main := { x.main with prog := i + 1 }, ended := ends,
                     sub := some (Act.ofEnt (chainEnt e q i w t.stamp) c.main.idx t.tick) }) with stamp := t.stamp + 1 }

/-- A fetched word of another class pushed to selector TQ. -/
def chainPush (b : ChainBody) (s : State) (e : Nat) (a : Act) : State :=
  let tq := b.tq.toNat
  let te := if 16 ≤ tq then s.boundEngine a.ent.crew a.ent.core tq else none
  match te with
  | none => s.stopEntry e (EngErr.illegal a.ent.word)
  | some k =>
    let x := s.eng k
    if x.queue.length < 16 then
      let i := (match a.ent.chain with | some p => p.2 | none => 0)
      ((s.setEng k { x with queue := x.queue ++ [a.ent] }).modCur e (fun y =>
        { y with sub := none, opens := y.opens ++ [i] })).chainAdvance e
    else s

/-- CHAIN (R305): one step of the CHAIN that the turn's engine executes. -/
def execChain (_ : TcHdr) (b : ChainBody) (s : State) : Host.Outcome State Fault Refusal :=
  let e := s.turn.engine
  match (s.eng e).cur with
  | none => .next s
  | some c =>
    let q := c.main.ent
    match (if c.main.checked then none else chainChk b s q) with
    | some r => .next (s.stopEntry e r)
    | none =>
      let t := s.modCur e (fun x => { x with main := { x.main with checked := true } })
      match c.sub with
      | some a => if opcOf a.ent.word / 32 = 0 then .next t else .next (chainPush b t e a)
      | none =>
        if c.ended then .next (t.chainAdvance e)
        else
          match t.tableHandle q b.lent.toNat with
          | none => .next t
          | some h =>
            let t := if b.wen then t.openAccess (hAddr h b.woff.toNat) 8 else t
            match chainReady b t h c.main.prog with
            | .error r => .next (t.stopEntry e r)
            | .ok false => .next t
            | .ok true => .next (chainFetch b t e c h)

/-! ## SIGOP and XFEN (R306, R307) -/

/-- A signal changed by an entry: an add reads it first. -/
def sigUnit (soff : Nat) (set : Bool) (v : Word) (s : State) (a : Act) : UnitRes :=
  let d := hAddr a.ent.h1 soff
  if s.writeWaits d 8 then .wait
  else if set then .done (s.engWrite d (toBytes v.toNat 8))
  else
    match s.engRead a.ent.h1 soff 8 with
    | .error x => .fail x
    | .ok p => .done (p.2.engWrite d (toBytes (BitVec.ofNat 64 (ofBytes p.1) + v).toNat 8))

/-- SIGOP (R306). -/
def execSigop (_ : TcHdr) (b : SigopBody) (s : State) : Host.Outcome State Fault Refusal :=
  runEntry false (fun t q => firstErr [noWindow q, t.entErr q q.h1 b.soff.toNat 8 .w]) (sigUnit b.soff.toNat b.op b.val) s

/-- Whether a selector is among those of QMASK. DEDUCED (log 37). -/
def xfenNames (m : BitVec 16) (sel : Nat) : Bool := m == 0 || m.getLsbD sel

/-- The copy engines whose entries an XFEN may wait for: those bound to the selectors of QMASK, or, once its crew has ended and nothing is
bound, all of them. DEDUCED (log 37). -/
def State.xfenEngines (s : State) (b : XfenBody) (q : QEnt) : List Nat :=
  if s.orphan q then List.range 128
  else ((List.range 16).filter (fun k => xfenNames b.qmask k)).filterMap (fun k => s.boundEngine q.crew q.core k)

/-- What an XFEN on an engine still waits for, with the engine that holds it: the earlier copy-class entries of its core to the selectors of
QMASK that have not completed. The CHAIN that fetched it is not one of them: its earlier words have completed (R305).
DEDUCED (log 37). -/
def State.xfenAwaits (s : State) (e : Nat) (b : XfenBody) (q : QEnt) : List (Nat × QEnt) :=
  let own : Option Nat := if q.chain.isSome then (s.eng e).cur.map (fun c => c.main.ent.stamp) else none
  (s.xfenEngines b q).flatMap (fun k => ((s.eng k).entries.filter (fun x =>
    x.core == q.core && x.crew == q.crew && x.pkt.isNone && own != some x.stamp && decide (x.stamp < q.stamp) &&
      opcOf x.word / 32 == 0)).map (fun x => (k, x)))

/-- Whether an XFEN still waits. -/
def xfenWaits (b : XfenBody) (s : State) (q : QEnt) : Bool := !(s.xfenAwaits s.turn.engine b q).isEmpty

/-- XFEN (R307). -/
def execXfen (_ : TcHdr) (b : XfenBody) (s : State) : Host.Outcome State Fault Refusal :=
  runEntry false (fun _ _ => none) (fun t a => if xfenWaits b t a.ent then .wait else .done t) s

/-! ## COLL (R308, R413, R414) -/

/-- A Foano port. -/
def State.port (s : State) (n : Nat) : Foano := s.foano.get n Foano.zero

/-- The ports that a COLL may use: the one it names, or those of the domain route table (R413). DEDUCED (log 53). -/
def State.collPorts (s : State) (b : CollBody) : List Nat :=
  if b.port.toNat < 16 then [b.port.toNat]
  else
    let r := s.routes.get b.peer.toNat (BitVec.ofNat 20 (2 ^ 20 - 1))
    (List.range 4).map (fun i => fld r (5 * i) 5)

/-- Whether a port carries units: it runs lanes, its link chiplet is in service, and UNITS shows it (R352, R412). -/
def State.portUp (s : State) (n : Nat) : Bool :=
  let d := s.siteDisc (25 + n / 8)
  decide (n < 16) && decide ((s.port n).lanes ≠ 0) && d.st == .ready && d.units.getLsbD (n % 8)

/-- The ports among them that are up. DEDUCED (log 53). -/
def State.upPorts (s : State) (b : CollBody) : List Nat :=
  (s.collPorts b).filter (fun n => s.portUp n)

/-- Whether a COLL's peer can be reached. DEDUCED (log 53). -/
def State.peerUp (s : State) (b : CollBody) : Bool :=
  s.mgmt.indom && !s.left.contains b.peer.toNat && !(s.upPorts b).isEmpty

/-- The peer's answer to a 4 KiB unit: acknowledged, or refused with the code of a failed check. What the peer holds is outside
the package (log 4). DESIGN CHOICE (log 39). -/
def State.peerAnswer (s : State) : Option Nat × State :=
  let d := s.draw 6
  (if d.1 = 0 then none else some (0x1F + d.1), d.2)

/-- The place of the first named port that is up, in turn from place i on (R413). -/
def State.portFrom (s : State) (ports : List Nat) (i : Nat) : Option Nat :=
  ((List.range ports.length).map (fun k => (i + k) % ports.length)).find? (fun j => s.portUp (ports.getD j 31))

/-- Flits put into a port's replay buffer, for a unit sent on it. -/
def State.sendFlits (s : State) (n k : Nat) : State :=
  { s with foano := s.foano.upd n Foano.zero (fun f => { f with replay := f.replay + k, wire := f.wire + k }) }

/-- Flits acknowledged leave a port's replay buffer. -/
def State.ackFlits (s : State) (n k : Nat) : State :=
  { s with foano := s.foano.upd n Foano.zero (fun f => { f with replay := f.replay - k, wire := f.wire - k }) }

/-- One step of COLL (R308, R413). A 4 KiB unit is sent on the next of the named ports that are up, and resent on the one after where its port
has gone down; flits that failed their CRC are sent again (R412); then the peer answers. DESIGN CHOICE (log 39). DEDUCED (log 53). -/
def collUnit (b : CollBody) (s : State) (a : Act) : UnitRes :=
  let lo := a.prog * 4096
  let n := min 4096 (b.len.toNat - lo)
  let k := ceilDiv n 256
  let ports := (s.collPorts b).filter (fun p => decide (p < 16))
  let at_ : Nat → Nat := fun j => ports.getD j 31
  if !s.peerUp b then .err (EngErr.engine 0x104)
  else
    match a.aux with
    | [] =>
      (match s.engRead a.ent.h0 (b.soff.toNat + lo) n, s.portFrom ports a.prog with
       | .error x, _ => .fail x
       | .ok p, none => .errAt p.2 (EngErr.engine 0x104)
       | .ok p, some j => .more ((p.2.sendFlits (at_ j) k).carry [j]) a.prog)
    | j :: _ =>
      if !s.portUp (at_ j) then
        match s.portFrom ports (j + 1) with
        | none => .err (EngErr.engine 0x104)
        | some i => .more ((s.sendFlits (at_ i) k).carry [i]) a.prog
      else if (s.port (at_ j)).wire < (s.port (at_ j)).replay then
        .more { s with foano := s.foano.upd (at_ j) Foano.zero (fun f => { f with wire := f.replay }) } a.prog
      else
        let r := ((s.ackFlits (at_ j) k).carry []).peerAnswer
        match r.1 with
        | some c => .errAt r.2 (EngErr.engine (0x300 + c))
        | none => if lo + 4096 ≥ b.len.toNat then .done r.2 else .more r.2 (a.prog + 1)

/-- COLL (R308). -/
def execColl (_ : TcHdr) (b : CollBody) (s : State) : Host.Outcome State Fault Refusal :=
  runEntry (b.len == 0) (fun t q => firstErr [noWindow q, t.entErr q q.h0 b.soff.toNat b.len.toNat .r]) (collUnit b) s

end Sys2Proof.Machine
end

