-- ==== Sys2Proof/Machine/Vls.lean ====
section
/-! DEFINITION. The vector load-store unit: VLD, VST, the long strided and two-dimensional forms (R183, R234, R240-R242), the global
forms (R243), VXU.VGTHL and VXU.VSCTL (R198), and LONG_OP_COMPLETE (R183). -/

namespace Sys2Proof.Machine

/-- The forms a VLS operation reads (R241). -/
def formBad (t : EType) : Bool :=
  match t with
  | .bfp => true
  | .fp .e2m1 => true
  | _ => false

/-- BAD_SHAPE at the turn (R172): DETAIL holds VSHAPE. -/
def State.badShape (s : State) : Check := s.faultHere cBAD_SHAPE (s.tctx.vshape.setWidth 64) 0

/-- Whether a unit's class is VEC, for latencies. -/
def State.onVec (s : State) : Bool := s.coreCls s.turn.core == .vec

/-! ## VLD and VST -/

/-- VLD's check (R240). -/
def checkVld (s : State) : Check :=
  let sa := fld s.turn.ops.a 0 32
  match s.scratchCheck .vls .vlsLoad sa 1024 64 with
  | .ok => s.poisonCheck (s.scratchAddrs s.turn.core sa 1024) sa
  | c => c

/-- VLD (R240): latency 5 or 8 from private scratch, 7 or 10 from shared scratch and C buffers (R233). -/
def execVld (s : State) : Host.Outcome State Fault Refusal :=
  guarded checkVld (fun t =>
    let sa := fld t.turn.ops.a 0 32
    let as := t.scratchAddrs t.turn.core sa 1024
    let slow : Nat := if t.onVec then 0 else 3
    if isShared sa then t.ssmLoad .vls 0 as (7 + slow) false
    else
      t.emit .vls ((if saSpace sa = 0 then 5 else 7) + slow)
        [(0, .v (BitVec.ofNat 8192 (ofBytes (as.map (Memory.read t.mem)))))]) s

/-- The bytes of a 1 KiB store that are written: all, or those of selected elements (R240). -/
def storeMask (o : Operands) : Nat → Bool :=
  let v := vecIn o
  if v.form.men then
    let w := v.form.type.width / 8
    fun i => decide (i / w < v.n) && v.mask.getLsbD (i / w)
  else fun _ => true

/-- The bytes of C with their offsets, as far as the form selects them. -/
def storeBytes (o : Operands) : List (Nat × Byte) :=
  ((List.range 1024).zip (toBytes o.vc.toNat 1024)).filter (fun p => storeMask o p.1)

/-- A masked store of a type without whole-byte elements is BAD_SHAPE (R240). -/
def maskedBad (o : Operands) : Bool := (formOf o.f).men && formBad (formOf o.f).type

/-- VST's check (R240). -/
def checkVst (s : State) : Check :=
  if maskedBad s.turn.ops then s.badShape
  else s.scratchCheck .vls .vlsStore (fld s.turn.ops.a 0 32) 1024 64

/-- VST (R240). -/
def execVst (s : State) : Host.Outcome State Fault Refusal :=
  guarded checkVst (fun t =>
    let sa := fld t.turn.ops.a 0 32
    let area := t.scratchArea t.turn.core sa
    let cs := (storeBytes t.turn.ops).map (fun p =>
      (scratchByte (saSpace sa) area ((saOff sa + p.1 : Nat) : Int), p.2))
    t.scratchStore .vls (isShared sa) cs) s

/-! ## Long operations (R183, R234) -/

/-- A long VLS operation's shape: element offsets in ascending linear order, relative to the scratch address (R241, R242).
DEDUCED (log 23). -/
def longOffs (two : Bool) (v : VecIn) (stride : Int) : List Int :=
  let e : Int := (v.form.type.width / 8 : Nat)
  (List.range v.n).map (fun q =>
    if two then ((q / v.cols : Nat) : Int) * stride + ((q % v.cols : Nat) : Int) * e else (q : Int) * stride)

/-- The check of a long VLS operation (R183, R241). An occupied sequencer comes before a bad shape. DEDUCED (log 72). -/
def checkLong (two : Bool) (u : SUnit) (s : State) : Check :=
  let o := s.turn.ops
  let v := vecIn o
  let sa := fld o.a 0 32
  let core := s.turn.core
  let e := v.form.type.width / 8
  let area := s.scratchArea core sa
  let offs := (longOffs two v (sfld o.b 0 32)).map (fun d => (saOff sa : Int) + d)
  if s.tctx.vlsLong.isSome then
    s.faultHere cILLEGAL_TRANSPORT ((s.core core).moveBits s.turn.bidx s.turn.slot) 0
  else if formBad v.form.type || !v.fits (8 * e) then s.badShape
  else if !s.spaceOk core s.tctx.part u sa then s.faultHere cCAP_RIGHTS (BitVec.ofNat 64 sa) 0
  else if !offs.all (fun x => scratchIn (saSpace sa) area x e) then s.faultHere cCAP_BOUNDS (BitVec.ofNat 64 sa) 0
  else if sa % e ≠ 0 ∨ fld o.b 0 32 % e ≠ 0 then s.misalignHere .vls sa e
  else if u = .vlsLoad then
    s.poisonCheck ((offs.zipIdx.filter (fun p => v.sel p.2)).flatMap (fun p =>
      (List.range e).map (fun (i : Nat) => scratchByte (saSpace sa) area (p.1 + (i : Nat))))) sa
  else .ok

/-- The addresses of each element's bytes of a long VLS operation. DEDUCED (log 23). -/
def State.longAddrs (s : State) (two : Bool) : List (List Nat) :=
  let o := s.turn.ops
  let v := vecIn o
  let sa := fld o.a 0 32
  let e := v.form.type.width / 8
  let area := s.scratchArea s.turn.core sa
  (longOffs two v (sfld o.b 0 32)).map (fun d =>
    (List.range e).map (fun (i : Nat) => scratchByte (saSpace sa) area ((saOff sa : Int) + d + (i : Nat))))

/-- The latency of a long VLS operation (R233). -/
def longLat (two : Bool) (v : VecIn) : Nat := 4 + (if two then v.rows else ceilDiv v.n 16)

/-- A long operation put into the VLS sequencer. -/
def State.startVls (s : State) (l : LongOp) : State := s.modCtx s.turn.core (fun x => { x.nextSeq with vlsLong := some l })

/-- A long VLS load: private scratch and C buffers are read now into the staging tile; shared granules are requested now, and the
tile is read from them when it completes (R234). -/
def longLoad (two : Bool) (dsel : BitVec 7) (s : State) : Host.Outcome State Fault Refusal :=
  guarded (checkLong two .vlsLoad) (fun t =>
    let x := t.tctx
    let v := vecIn t.turn.ops
    let sa := fld t.turn.ops.a 0 32
    let b := v.form.type.width
    let es := t.longAddrs two
    let tile := tileOf b (es.zipIdx.map (fun p => if v.sel p.2 then ofBytes (p.1.map (Memory.read t.mem)) else 0))
    let l : LongOp :=
      { dsel := dsel, need := longLat two v, adv := 0, parked := false, trapped := false, overdue := false, tile := tile, isLoad := true,
        cells := [], shared := [], group := none, elems := [], width := 8, seq := x.seq + 1, bidx := t.turn.bidx }
    if isShared sa then
      let want := (es.zipIdx.filter (fun p => v.sel p.2)).map (fun p => (p.2, p.1))
      let addrs := want.flatMap (fun p => p.2)
      let id := t.stamp
      match want with
      | [] => t.startVls l
      | _ => (t.ssmLoad .vls dsel addrs b true).modCtx t.turn.core (fun y =>
          { y with vlsLong := some { l with group := some id, tile := 0, elems := want.map (fun p => p.1), width := b } })
    else t.startVls l) s

/-- A long VLS store: its cells are made when it completes (R234). -/
def longStore (two : Bool) (dsel : BitVec 7) (s : State) : Host.Outcome State Fault Refusal :=
  guarded (checkLong two .vlsStore) (fun t =>
    let x := t.tctx
    let v := vecIn t.turn.ops
    let sa := fld t.turn.ops.a 0 32
    let b := v.form.type.width
    let es := t.longAddrs two
    let cs := (es.zipIdx.filter (fun p => v.sel p.2)).flatMap (fun p => p.1.zip (toBytes (elem v.c b p.2) (b / 8)))
    t.startVls
      { dsel := dsel, need := longLat two v, adv := 0, parked := false, trapped := false, overdue := false, tile := 0, isLoad := false,
        cells := if isShared sa then [] else cs, shared := if isShared sa then cs else [], group := none,
        elems := [], width := 8, seq := x.seq + 1, bidx := t.turn.bidx }) s

/-- VLDS (R241). -/
def execVlds (s : State) : Host.Outcome State Fault Refusal := longLoad false 0x0A s
/-- VSTS (R241). -/
def execVsts (s : State) : Host.Outcome State Fault Refusal := longStore false 0x0B s
/-- VLD2D (R242). -/
def execVld2d (s : State) : Host.Outcome State Fault Refusal := longLoad true 0x0C s
/-- VST2D (R242). -/
def execVst2d (s : State) : Host.Outcome State Fault Refusal := longStore true 0x0D s

/-! ## VXU.VGTHL and VXU.VSCTL (R198) -/

/-- The private-scratch addresses of element q's bytes: idx(q) is U16 number q of port A. -/
def State.gatherAddrs (s : State) (v : VecIn) (q : Nat) : List Nat :=
  let e := v.form.type.width / 8
  let area := s.psmShare s.turn.core s.tctx.part
  (List.range e).map (fun (i : Nat) => area.1 + (s.turn.ops.b.toNat + elem v.a 16 q * e + i) % area.2)

/-- The check of VGTHL and VSCTL (R183, R193, R198). A trigger in the clock in which an earlier long operation completes finds its sequencer
occupied, and an occupied sequencer comes before a bad shape. DEDUCED (log 72). -/
def checkGather (load : Bool) (s : State) : Check :=
  let v := vecIn s.turn.ops
  let e := v.form.type.width / 8
  if s.tctx.vxuLong.isSome then
    s.faultHere cILLEGAL_TRANSPORT ((s.core s.turn.core).moveBits s.turn.bidx s.turn.slot) 0
  else if formBad v.form.type || !v.fits v.form.type.width || decide (v.n > 512) then s.badShape
  else if s.turn.ops.b.toNat % e ≠ 0 then
    s.tctx.trapOr { misalign .vxu s.turn.bidx 0 e with info1 := s.turn.ops.b } s.turn.slot s.turn.bidx
  else if load then
    s.poisonCheck (((List.range v.n).filter v.sel).flatMap (s.gatherAddrs v)) (fld s.turn.ops.b 0 32)
  else .ok

/-- A long operation put into the VXU sequencer. -/
def State.startVxu (s : State) (l : LongOp) : State := s.modCtx s.turn.core (fun x => { x.nextSeq with vxuLong := some l })

/-- VGTHL (R198). -/
def execVgthl (s : State) : Host.Outcome State Fault Refusal :=
  guarded (checkGather true) (fun t =>
    let x := t.tctx
    let v := vecIn t.turn.ops
    let tile := tileOf v.form.type.width ((List.range v.n).map (fun q =>
      if v.sel q then ofBytes ((t.gatherAddrs v q).map (Memory.read t.mem)) else 0))
    t.startVxu
      { dsel := 0x30, need := 4 + ceilDiv v.n 8, adv := 0, parked := false, trapped := false, overdue := false, tile := tile, isLoad := true,
        cells := [], shared := [], group := none, elems := [], width := 8, seq := x.seq + 1, bidx := t.turn.bidx }) s

/-- VSCTL (R198). -/
def execVsctl (s : State) : Host.Outcome State Fault Refusal :=
  guarded (checkGather false) (fun t =>
    let x := t.tctx
    let v := vecIn t.turn.ops
    let b := v.form.type.width
    let cs := ((List.range v.n).filter v.sel).flatMap (fun q => (t.gatherAddrs v q).zip (toBytes (elem v.c b q) (b / 8)))
    t.startVxu
      { dsel := 0x31, need := 4 + ceilDiv v.n 8, adv := 0, parked := false, trapped := false, overdue := false, tile := 0, isLoad := false,
        cells := cs, shared := [], group := none, elems := [], width := 8, seq := x.seq + 1, bidx := t.turn.bidx }) s

/-- Whether a long operation completes in a clock in which it has advanced: it has advanced enough times, and its shared granules
are served. -/
def LongOp.due (l : LongOp) : Bool := decide (l.need ≤ l.adv) && l.group.isNone

/-- One unit's long operation completed: a load writes its window, a store makes its cells. -/
def State.finishLong (s : State) (n : Nat) (fu : FU) (l : LongOp) : State :=
  let clear : Ctx → Ctx := fun x => if fu = .vxu then { x with vxuLong := none } else { x with vlsLong := none }
  if l.isLoad then s.modCtx n (fun x => (clear x).pushResult fu 0 (.v l.tile))
  else
    let t := s.modCtx n clear
    let t := t.writeMem l.cells
    match l.shared with
    | [] => t
    | cs =>
      let g : SsmGroup :=
        { site := siteOf n, core := n, crew := (s.core n).ctx.crew, fu := fu, opc := 0, addrs := [], got := [], left := 0,
          issued := s.now, base := 0, waited := 0, seq := l.seq, bidx := l.bidx, long := true }
      t.ssmRequest g (cellsByGranule cs) true

/-- The long operation of one unit completed if it is due and is a load, or a store, as asked. -/
def State.completeLong (s : State) (n : Nat) (fu : FU) (load : Bool) (l : Option LongOp) : State :=
  match l with
  | some l => if l.due && !l.parked && l.isLoad == load then s.finishLong n fu l else s
  | none => s

/-- LONG_OP_COMPLETE (R183, R198, R234): the long operations of the turn's core that are due complete: with item 1 a load of VLS, with
item 2 a load of VXU, and otherwise the stores of both, VLS before VXU. -/
def execLongOpComplete (s : State) : Host.Outcome State Fault Refusal :=
  let n := s.turn.core
  let x := (s.core n).ctx
  match s.turn.item with
  | 1 => .next (s.completeLong n .vls true x.vlsLong)
  | 2 => .next (s.completeLong n .vxu true x.vxuLong)
  | _ => .next ((s.completeLong n .vls false x.vlsLong).completeLong n .vxu false x.vxuLong)

/-! ## Global vectors (R243) -/

/-- VGLD (R243). -/
def execVgld (s : State) : Host.Outcome State Fault Refusal :=
  guarded (fun t => t.globalCheck 1024 .r) (fun t =>
    let b := t.turn.ops.b
    t.startLoad t.turn.core (.vector (fld b 0 3)) 1024 (fld b 6 10) 1 true false true) s

/-- VGST's check (R243). -/
def checkVgst (s : State) : Check := if maskedBad s.turn.ops then s.badShape else s.globalCheck 1024 .w

/-- VGST (R243). -/
def execVgst (s : State) : Host.Outcome State Fault Refusal :=
  guarded checkVgst (fun t =>
    let a := hAddr t.turn.ops.h t.turn.ops.a.toNat
    t.startStore ((storeBytes t.turn.ops).map (fun p => (a + p.1, p.2)))) s

/-- VPREF (R243): it raises nothing; tier-2 extents start their migration (R232). DEDUCED (log 57). -/
def execVpref (s : State) : Host.Outcome State Fault Refusal :=
  match s.globalCheck 1024 .r with
  | .ok => .next (s.touchExts (hAddr s.turn.ops.h s.turn.ops.a.toNat) 1024)
  | _ => .next s

end Sys2Proof.Machine
end

