-- ==== Sys2Proof/Machine/VecAlu.lean ====
section
/-! DEFINITION. The vector arithmetic units VAA and VAB (R181, R182, R185-R192). -/

namespace Sys2Proof.Machine

/-- The clocks of a vector operation: the VEC column, and six more on the other classes (R182). -/
def State.vecLat (s : State) (base : Nat) : Nat := if s.onVec then base else base + 6

/-- The floating types of R185. -/
def fpForm (t : EType) : Option FFmt :=
  match t with
  | .fp .e2m1 => none
  | .fp f => some f
  | _ => none

/-- The integer types. -/
def intForm (t : EType) : Option (Bool × Nat) :=
  match t with
  | .int sg b => some (sg, b)
  | _ => none

/-- Every type except BFP. -/
def anyForm (t : EType) : Option Nat :=
  match t with
  | .bfp => none
  | t => some t.width

/-- BAD_SHAPE unless a type is accepted and the tile fits its width (R172, R185). -/
def shapeCheck (ok : VecIn → Bool) (s : State) : Check :=
  if ok (vecIn s.turn.ops) then .ok else s.badShape

/-- A vector operation: its check and its results with their conditions after its latency (R179, R182). -/
def vecOp (fu : FU) (base : Nat) (macC : Bool) (ok : VecIn → Bool) (f : VecIn → VecOut) (s : State) :
    Host.Outcome State Fault Refusal :=
  guarded (shapeCheck ok) (fun t =>
    let v := vecIn t.turn.ops
    t.emitVec fu (t.vecLat base) (f v) v.ten macC) s

/-- The check of a floating form. -/
def okFp (v : VecIn) : Bool :=
  match fpForm v.form.type with
  | some f => v.fits f.width
  | none => false

/-- The check of an integer form. -/
def okInt (v : VecIn) : Bool :=
  match intForm v.form.type with
  | some p => v.fits p.2
  | none => false

/-- The check of a form of any type except BFP. -/
def okAny (v : VecIn) : Bool :=
  match anyForm v.form.type with
  | some w => v.fits w
  | none => false

/-- The format of a floating form. -/
def VecIn.fmt (v : VecIn) : FFmt := (fpForm v.form.type).getD .fp32

/-- The exact results of a floating form's elements rounded once (R90). DEDUCED (log 12). -/
def fpMap (f : RMode → Num → Num → Num → Exact) (v : VecIn) : VecOut :=
  let t := v.fmt
  let b := t.width
  let md := v.mode
  let sat := v.satFor v.form.type
  tileOut b (v.map b (fun q =>
    t.deliver md sat (f md (t.decode (elem v.a b q)) (t.decode (elem v.b b q)) (t.decode (elem v.c b q)))))

/-- A floating form that works on an element's bits, with the operand's NaN rule first (R186). -/
def fpBits (f : FFmt → Nat → Nat) (v : VecIn) : VecOut :=
  let t := v.fmt
  let b := t.width
  tileOut b (v.map b (fun q =>
    let x := elem v.a b q
    let n := t.decode x
    if n.isNaN then (t.canonNaN, if n.isSig then fIVL else 0) else (f t x, 0)))

/-- An element rounded to an integral value in its own format (R186). -/
def rndElem (t : FFmt) (md : RMode) (bits : Nat) : Nat × Flags :=
  match t.decode bits with
  | .nan sg => (t.canonNaN, if sg then fIVL else 0)
  | .inf _ => (bits, 0)
  | .fin neg m e =>
    let r := roundInt md neg m e
    ((t.round .rne false neg r.1.natAbs 0).1, if r.2 then fINX else 0)

/-- VCMP's condition (R188). -/
def fpCond (c : Nat) (x y : Num) : Bool :=
  let un : Bool := x.isNaN || y.isNaN
  match c with
  | 0 => x.eq y
  | 1 => un || !x.eq y
  | 2 => x.lt y
  | 3 => x.lt y || x.eq y
  | 4 => un
  | 5 => !un
  | _ => false

/-- What VCMP raises for an element (R188). -/
def cmpFlags (c : Nat) (x y : Num) : Flags :=
  if (if c = 2 ∨ c = 3 then x.isNaN || y.isNaN else x.isSig || y.isSig) then fIVL else 0

/-- VICMP's condition (R188). -/
def intCond (c : Nat) (x y : Int) : Bool :=
  match c with
  | 0 => decide (x = y)
  | 1 => decide (x ≠ y)
  | 2 => decide (x < y)
  | 3 => decide (x ≤ y)
  | _ => false

/-- A mask into port M. -/
def maskOut (bits : List Bool) (conds : List Flags) : VecOut := { writes := [(3, .v (maskVec bits))], conds := conds }

/-- VCMP's results. -/
def vcmpOut (v : VecIn) : VecOut :=
  let t := v.fmt
  let b := t.width
  let r := (List.range v.n).map (fun q =>
    let x := t.decode (elem v.a b q)
    let y := t.decode (elem v.b b q)
    if v.sel q then (fpCond v.form.rnd x y, cmpFlags v.form.rnd x y) else (false, 0))
  maskOut (r.map (fun p => p.1)) (r.map (fun p => p.2))

/-- The signedness and width of an integer form. -/
def VecIn.int (v : VecIn) : Bool × Nat := (intForm v.form.type).getD (true, 32)

/-- An integer form's elements, computed exactly and given to a reduction (R189). -/
def intMap (f : Bool → Nat → Bool → Int → Int → Int → Nat) (v : VecIn) : VecOut :=
  let sg := v.int.1
  let b := v.int.2
  let rd : VReg → Nat → Int := fun t q => readInt sg b (elem t b q)
  tileOut b (v.map b (fun q => (f sg b v.form.sat (rd v.a q) (rd v.b q) (rd v.c q), 0)))

/-- VICMP's results. -/
def vicmpOut (v : VecIn) : VecOut :=
  let sg := v.int.1
  let b := v.int.2
  maskOut ((List.range v.n).map (fun q =>
    v.sel q && intCond v.form.rnd (readInt sg b (elem v.a b q)) (readInt sg b (elem v.b b q)))) []

/-- Elements combined as raw bits of their width (R190). -/
def bitMap (f : Nat → Nat → Nat → Nat) (v : VecIn) : VecOut :=
  let b := v.form.type.width
  tileOut b (v.map b (fun q => (f b (elem v.a b q) (elem v.b b q % 2 ^ b), 0)))

/-- VSEL's results (R188). -/
def vselOut (v : VecIn) : VecOut :=
  let b := v.form.type.width
  tileOut b (v.map b (fun q => (if v.c.getLsbD q then elem v.b b q else elem v.a b q, 0)))

/-- A left shift of an element of b bits (R94). -/
def shlElem (b a k : Nat) : Nat := if k % 256 < b then a * 2 ^ (k % 256) % 2 ^ b else 0
/-- A logical right shift. -/
def shrElem (b a k : Nat) : Nat := if k % 256 < b then a / 2 ^ (k % 256) else 0
/-- An arithmetic right shift. -/
def sraElem (b a k : Nat) : Nat := wrapNat (sextNat a b / 2 ^ (min (k % 256) b)) b
/-- A left rotate. -/
def rotElem (b a k : Nat) : Nat :=
  let r := k % 256 % b
  (a * 2 ^ r + a / 2 ^ (b - r)) % 2 ^ b

/-! ## VCVT (R191) -/

/-- VCVT's BFP block of its source or result. DEDUCED (log 15). -/
def VecIn.blockW (v : VecIn) : Nat := v.form.cbw + 2

/-- VCVT's check. -/
def okCvt (v : VecIn) : Bool :=
  let bfpOk : Bool := v.form.cbw != 7 && v.n % 32 == 0 && v.fits 32
  match v.form.stype, v.form.type with
  | .fp .fp32, .bfp => bfpOk
  | .fp .bf16, .bfp => bfpOk
  | .bfp, .fp .fp32 => bfpOk
  | .bfp, .fp .bf16 => bfpOk
  | .bfp, _ => false
  | _, .bfp => false
  | .int _ _, .fp .e2m1 => false
  | .fp .e2m1, .int _ _ => false
  | a, b => v.fits (max a.width b.width)

/-- A tile encoded block by block (R85, R88). -/
def cvtEncode (f : FFmt) (v : VecIn) : VecOut :=
  let w := v.blockW
  let dit : Bool := v.form.rnd == 5 || (v.form.rnd == 6 && v.drm == 5)
  let r := (List.range (v.n / 32)).map (fun k =>
    bfpEncode w false (if dit then some (ditherPhase v.dph k) else none)
      ((List.range 32).map (fun i => f.decode (elem v.a f.width (32 * k + i)))))
  { writes := [(0, .v (tileOf (8 * bfpSlotBytes w) (r.map (fun p => p.1))))], conds := r.flatMap (fun p => p.2) }

/-- A tile decoded block by block (R84): RNE, and an overflow under the form's SAT (R80). DEDUCED (log 15). -/
def cvtDecode (f : FFmt) (v : VecIn) : VecOut :=
  let w := v.blockW
  tileOut f.width ((List.range v.n).map (fun q =>
    f.deliver .rne (v.satFor (.fp f)) (bfpDecodeElem w (elem v.a (8 * bfpSlotBytes w) (q / 32)) (q % 32)).exact))

/-- A tile converted element by element. -/
def cvtPlain (v : VecIn) : VecOut :=
  let src := v.form.stype
  let dst := v.form.type
  let ditOk : Bool := match dst with
    | .fp .e2m1 => true
    | .fp .e4m3 => true
    | _ => false
  tileOut dst.width (v.map dst.width (fun q =>
    convertElem src dst (modeOf v.form.rnd v.drm ditOk v.dph q) (v.satFor dst) (elem v.a src.width q)))

/-- VCVT's results. -/
def cvtOut (v : VecIn) : VecOut :=
  match v.form.stype, v.form.type with
  | .fp f, .bfp => cvtEncode f v
  | .bfp, .fp f => cvtDecode f v
  | _, _ => cvtPlain v

/-! ## The dot forms (R192) -/

/-- VDOT4's check: I8 or U8 against an I32 tile. -/
def okDot4 (v : VecIn) : Bool :=
  match v.form.type with
  | .int _ 8 => v.fits 32
  | _ => false

/-- VDOT4's results. -/
def dot4Out (v : VecIn) : VecOut :=
  let sg := v.int.1
  let p : Nat → Int := fun k => readInt sg 8 (elem v.a 8 k) * readInt sg 8 (elem v.b 8 k)
  tileOut 32 (v.map 32 (fun i =>
    (reduceInt true 32 v.form.sat
      (readInt true 32 (elem v.c 32 i) + p (4 * i) + p (4 * i + 1) + p (4 * i + 2) + p (4 * i + 3)), 0)))

/-- VDOTB's check: BF16 against an FP32 tile. -/
def okDotb (v : VecIn) : Bool :=
  match v.form.type with
  | .fp .bf16 => v.fits 32
  | _ => false

/-- VDOTB's results: one exact sum, rounded once with RNE, an overflow giving infinity (R92). DEDUCED (log 13, 70). -/
def dotbOut (v : VecIn) : VecOut :=
  let p : Nat → Exact := fun k => (FFmt.bf16.decode (elem v.a 16 k)).mul (FFmt.bf16.decode (elem v.b 16 k))
  tileOut 32 (v.map 32 (fun i =>
    FFmt.fp32.deliver .rne false
      (exactSum .rne [(FFmt.fp32.decode (elem v.c 32 i)).exact, p (2 * i), p (2 * i + 1)])))

/-! ## The operations -/

/-- VADD (R186). -/
def execVadd (u : VecUnit) (s : State) : Host.Outcome State Fault Refusal :=
  vecOp u.fu 4 false okFp (fpMap (fun md x y _ => exactSum md [x.exact, y.exact])) s

/-- VSUB (R186). -/
def execVsub (u : VecUnit) (s : State) : Host.Outcome State Fault Refusal :=
  vecOp u.fu 4 false okFp (fpMap (fun md x y _ => exactSum md [x.exact, y.exact.neg])) s

/-- VMUL (R186). -/
def execVmul (u : VecUnit) (s : State) : Host.Outcome State Fault Refusal :=
  vecOp u.fu 5 false okFp (fpMap (fun _ x y _ => x.mul y)) s

/-- VFMA (R186). -/
def execVfma (u : VecUnit) (s : State) : Host.Outcome State Fault Refusal :=
  vecOp u.fu 5 false okFp (fpMap (fun md x y z => fmaExact md false false x y z)) s

/-- VFMS (R186). -/
def execVfms (u : VecUnit) (s : State) : Host.Outcome State Fault Refusal :=
  vecOp u.fu 5 false okFp (fpMap (fun md x y z => fmaExact md false true x y z)) s

/-- VFNMA (R186). -/
def execVfnma (u : VecUnit) (s : State) : Host.Outcome State Fault Refusal :=
  vecOp u.fu 5 false okFp (fpMap (fun md x y z => fmaExact md true false x y z)) s

/-- VFMAC (R187: its result also goes to its unit's port C). -/
def execVfmac (u : VecUnit) (s : State) : Host.Outcome State Fault Refusal :=
  vecOp u.fu 5 true okFp (fpMap (fun md x y z => fmaExact md false false x y z)) s

/-- VMIN (R186). -/
def execVmin (u : VecUnit) (s : State) : Host.Outcome State Fault Refusal :=
  vecOp u.fu 4 false okFp (fun v =>
    tileOut v.fmt.width (v.map v.fmt.width (fun q =>
      fpMinMax v.fmt false (elem v.a v.fmt.width q) (elem v.b v.fmt.width q)))) s

/-- VMAX (R186). -/
def execVmax (u : VecUnit) (s : State) : Host.Outcome State Fault Refusal :=
  vecOp u.fu 4 false okFp (fun v =>
    tileOut v.fmt.width (v.map v.fmt.width (fun q =>
      fpMinMax v.fmt true (elem v.a v.fmt.width q) (elem v.b v.fmt.width q)))) s

/-- VABS (R186). -/
def execVabs (u : VecUnit) (s : State) : Host.Outcome State Fault Refusal :=
  vecOp u.fu 4 false okFp (fpBits (fun t x => x % 2 ^ (t.width - 1))) s

/-- VNEG (R186). -/
def execVneg (u : VecUnit) (s : State) : Host.Outcome State Fault Refusal :=
  vecOp u.fu 4 false okFp (fpBits (fun t x => x ^^^ 2 ^ (t.width - 1))) s

/-- VCMP (R188). -/
def execVcmp (u : VecUnit) (s : State) : Host.Outcome State Fault Refusal :=
  vecOp u.fu 4 false okFp vcmpOut s

/-- VSEL (R188). -/
def execVsel (u : VecUnit) (s : State) : Host.Outcome State Fault Refusal :=
  vecOp u.fu 4 false okAny vselOut s

/-- VCVT (R191). -/
def execVcvt (u : VecUnit) (s : State) : Host.Outcome State Fault Refusal :=
  vecOp u.fu 5 false okCvt cvtOut s

/-- VRND (R186). -/
def execVrnd (u : VecUnit) (s : State) : Host.Outcome State Fault Refusal :=
  vecOp u.fu 5 false okFp (fun v =>
    tileOut v.fmt.width (v.map v.fmt.width (fun q => rndElem v.fmt v.mode (elem v.a v.fmt.width q)))) s

/-- VIADD (R189). -/
def execViadd (u : VecUnit) (s : State) : Host.Outcome State Fault Refusal :=
  vecOp u.fu 2 false okInt (intMap (fun sg b sat x y _ => reduceInt sg b sat (x + y))) s

/-- VISUB (R189). -/
def execVisub (u : VecUnit) (s : State) : Host.Outcome State Fault Refusal :=
  vecOp u.fu 2 false okInt (intMap (fun sg b sat x y _ => reduceInt sg b sat (x - y))) s

/-- VIMUL (R189). -/
def execVimul (u : VecUnit) (s : State) : Host.Outcome State Fault Refusal :=
  vecOp u.fu 4 false okInt (intMap (fun sg b sat x y _ => reduceInt sg b sat (x * y))) s

/-- VIMULH (R189). -/
def execVimulh (u : VecUnit) (s : State) : Host.Outcome State Fault Refusal :=
  vecOp u.fu 4 false okInt (intMap (fun _ b _ x y _ => wrapNat (x * y / 2 ^ b) b)) s

/-- VIMAD (R189). -/
def execVimad (u : VecUnit) (s : State) : Host.Outcome State Fault Refusal :=
  vecOp u.fu 4 false okInt (intMap (fun sg b sat x y z => reduceInt sg b sat (x * y + z))) s

/-- VIMIN (R189). -/
def execVimin (u : VecUnit) (s : State) : Host.Outcome State Fault Refusal :=
  vecOp u.fu 2 false okInt (intMap (fun _ b _ x y _ => wrapNat (min x y) b)) s

/-- VIMAX (R189). -/
def execVimax (u : VecUnit) (s : State) : Host.Outcome State Fault Refusal :=
  vecOp u.fu 2 false okInt (intMap (fun _ b _ x y _ => wrapNat (max x y) b)) s

/-- VIABS (R189). -/
def execViabs (u : VecUnit) (s : State) : Host.Outcome State Fault Refusal :=
  vecOp u.fu 2 false okInt (intMap (fun sg b sat x _ _ => reduceInt sg b sat (x.natAbs : Nat))) s

/-- VICMP (R188). -/
def execVicmp (u : VecUnit) (s : State) : Host.Outcome State Fault Refusal :=
  vecOp u.fu 2 false okInt vicmpOut s

/-- VAND (R190). -/
def execVand (u : VecUnit) (s : State) : Host.Outcome State Fault Refusal :=
  vecOp u.fu 2 false okAny (bitMap (fun _ a b => a &&& b)) s

/-- VOR (R190). -/
def execVor (u : VecUnit) (s : State) : Host.Outcome State Fault Refusal :=
  vecOp u.fu 2 false okAny (bitMap (fun _ a b => a ||| b)) s

/-- VXOR (R190). -/
def execVxor (u : VecUnit) (s : State) : Host.Outcome State Fault Refusal :=
  vecOp u.fu 2 false okAny (bitMap (fun _ a b => a ^^^ b)) s

/-- VSHL (R190). -/
def execVshl (u : VecUnit) (s : State) : Host.Outcome State Fault Refusal :=
  vecOp u.fu 2 false okInt (bitMap shlElem) s

/-- VSHR (R190). -/
def execVshr (u : VecUnit) (s : State) : Host.Outcome State Fault Refusal :=
  vecOp u.fu 2 false okInt (bitMap shrElem) s

/-- VSRA (R190). -/
def execVsra (u : VecUnit) (s : State) : Host.Outcome State Fault Refusal :=
  vecOp u.fu 2 false okInt (bitMap sraElem) s

/-- VROT (R190). -/
def execVrot (u : VecUnit) (s : State) : Host.Outcome State Fault Refusal :=
  vecOp u.fu 2 false okInt (bitMap rotElem) s

/-- VDOT4 (R192). -/
def execVdot4 (u : VecUnit) (s : State) : Host.Outcome State Fault Refusal :=
  vecOp u.fu 6 false okDot4 dot4Out s

/-- VDOTB (R192). -/
def execVdotb (u : VecUnit) (s : State) : Host.Outcome State Fault Refusal :=
  vecOp u.fu 6 false okDotb dotbOut s

end Sys2Proof.Machine
end

