-- ==== Sys2Proof/Machine/Vxu.lean ====
section
/-! DEFINITION. The vector exchange unit VXU (R193-R197) and the special-function unit SFN (R199). VGTHL and VSCTL stand with the
long operations in Vls. -/

namespace Sys2Proof.Machine

/-! ## Slices and rearrangement (R194, R195) -/

/-- The types of R193. -/
def okMove (v : VecIn) : Bool :=
  match v.form.type with
  | .bfp => false
  | .fp .e2m1 => false
  | t => v.fits t.width

/-- The element width of the form. -/
def VecIn.w (v : VecIn) : Nat := v.form.type.width

/-- A tile whose element q is f q, into port D. -/
def VecIn.build (v : VecIn) (f : Nat → Nat) : VecOut := plainOut v.w ((List.range v.n).map f)

/-- ROWGET's results. -/
def rowgetOut (v : VecIn) : VecOut :=
  v.build (fun q => if q < v.cols ∧ v.sb.toNat < v.rows then elem v.a v.w (v.sb.toNat * v.cols + q) else 0)

/-- ROWPUT's results. -/
def rowputOut (v : VecIn) : VecOut :=
  v.build (fun q => if q / v.cols = v.sb.toNat then elem v.a v.w (q % v.cols) else elem v.c v.w q)

/-- COLGET's results. -/
def colgetOut (v : VecIn) : VecOut :=
  v.build (fun q => if q < v.rows ∧ v.sb.toNat < v.cols then elem v.a v.w (q * v.cols + v.sb.toNat) else 0)

/-- COLPUT's results. -/
def colputOut (v : VecIn) : VecOut :=
  v.build (fun q => if q % v.cols = v.sb.toNat then elem v.a v.w (q / v.cols) else elem v.c v.w q)

/-- VTRN's results. -/
def vtrnOut (v : VecIn) : VecOut := v.build (fun q => elem v.a v.w (q % v.cols * v.cols + q / v.cols))

/-- A tile of selected elements; the others keep A's (R181). -/
def VecIn.buildSel (v : VecIn) (f : Nat → Nat) : VecOut := v.build (fun q => if v.sel q then f q else elem v.a v.w q)

/-- VPERM's results. -/
def vpermOut (v : VecIn) : VecOut :=
  v.buildSel (fun q => let i := elem v.c 16 q; if i < v.n then elem v.a v.w i else 0)

/-- VBCAST's results. -/
def vbcastOut (v : VecIn) : VecOut :=
  v.buildSel (fun q =>
    if bitAt v.sb.toNat 16 then
      (let r := fld v.sb 0 6; if r < v.rows then elem v.a v.w (r * v.cols + q % v.cols) else 0)
    else (let i := fld v.sb 0 16; if i < v.n then elem v.a v.w i else 0))

/-- The shape that VSHP names. -/
def VecIn.newShape (v : VecIn) : BitVec 13 := v.sb.setWidth 13

/-- VSHP's results. -/
def vshpOut (v : VecIn) : VecOut :=
  let c := shapeCols v.newShape
  plainOut v.w ((List.range (shapeN v.newShape)).map (fun q =>
    if q / c < v.rows ∧ q % c < v.cols then elem v.a v.w (q / c * v.cols + q % c) else 0))

/-- VIOTA's results. -/
def viotaOut (v : VecIn) : VecOut := v.buildSel (fun q => (v.sb.toNat + q) % 2 ^ v.w)

/-! ## Reductions (R196) -/

/-- The types of VRED and VSCAN. -/
def okRed (v : VecIn) : Bool := okInt v || okFp v

/-- One combination step of a reduction: rounded in the form's mode or reduced to the element width. -/
def VecIn.step (v : VecIn) (x y : Nat) : Nat × Flags :=
  let op := fld v.sb 0 2
  match v.form.type with
  | .fp f =>
    if op = 1 ∨ op = 2 then fpMinMax f (op == 2) x y
    else f.deliver v.mode (v.satFor v.form.type) (exactSum v.mode [(f.decode x).exact, (f.decode y).exact])
  | .int sg b =>
    if op = 1 ∨ op = 2 then (intMinMax sg b (op == 2) x y, 0)
    else (reduceInt sg b v.form.sat (readInt sg b x + readInt sg b y), 0)
  | .bfp => (0, 0)

/-- One level of the fixed tree: neighbours combined, an odd last element kept. -/
def redLevel (f : Nat → Nat → Nat × Flags) : List Nat → List Nat × Flags
  | x :: y :: r =>
    let p := f x y
    let q := redLevel f r
    (p.1 :: q.1, p.2 ||| q.2)
  | xs => (xs, 0)

/-- The fixed tree of R196; fuel is the length of the list. -/
def redTree (f : Nat → Nat → Nat × Flags) : Nat → List Nat → Nat × Flags
  | _, [] => (0, 0)
  | _, [x] => (x, 0)
  | 0, x :: _ => (x, 0)
  | n + 1, xs =>
    let l := redLevel f xs
    let r := redTree f n l.1
    (r.1, l.2 ||| r.2)

/-- The groups of an axis, each its elements' indices in ascending order. -/
def VecIn.groups (v : VecIn) : List (List Nat) :=
  match fld v.sb 2 2 with
  | 1 => (List.range v.rows).map (fun i => (List.range v.cols).map (fun j => i * v.cols + j))
  | 2 => (List.range v.cols).map (fun j => (List.range v.rows).map (fun i => i * v.cols + j))
  | _ => [List.range v.n]

/-- A result as S shows it: sign-extended for I types (R196, R197). -/
def VecIn.scalar (v : VecIn) (x : Nat) : Word :=
  match v.form.type with
  | .int true b => sext64 x b
  | t => zext64 x t.width

/-- VRED's results. -/
def vredOut (v : VecIn) : VecOut :=
  let r := v.groups.map (fun g => redTree v.step g.length (g.map (elem v.a v.w)))
  let d : Nat × ResVal := (0, .v (tileOf v.w (r.map (fun p => p.1))))
  { writes := if fld v.sb 2 2 = 1 ∨ fld v.sb 2 2 = 2 then [d] else [d, (1, .s (v.scalar ((r.map (fun p => p.1)).headD 0)))]
    conds := r.map (fun p => p.2) }

/-- The inclusive prefixes of a group after a first element. -/
def scanFrom (f : Nat → Nat → Nat × Flags) (acc : Nat) : List Nat → List (Nat × Flags)
  | [] => []
  | x :: xs =>
    let p := f acc x
    p :: scanFrom f p.1 xs

/-- The inclusive prefixes of a group. -/
def scanGroup (f : Nat → Nat → Nat × Flags) : List Nat → List (Nat × Flags)
  | [] => []
  | x :: xs => (x, 0) :: scanFrom f x xs

/-- VSCAN's results: each group's prefixes in their own positions. -/
def vscanOut (v : VecIn) : VecOut :=
  let gs := v.groups.map (fun g => scanGroup v.step (g.map (elem v.a v.w)))
  tileOut v.w ((List.range v.n).map (fun q =>
    let p : Nat × Nat := match fld v.sb 2 2 with
      | 1 => (q / v.cols, q % v.cols)
      | 2 => (q % v.cols, q / v.cols)
      | _ => (0, q)
    (gs.getD p.1 []).getD p.2 (0, 0)))

/-! ## Compress, expand and single elements (R197) -/

/-- VCOMP's results. -/
def vcompOut (v : VecIn) : VecOut :=
  let xs := ((List.range v.n).filter (fun q => v.c.getLsbD q)).map (elem v.a v.w)
  { writes := [(0, .v (tileOf v.w xs)), (1, .s (BitVec.ofNat 64 xs.length))], conds := [] }

/-- VEXP's elements from position q on, k elements of A used so far. -/
def expandFrom (v : VecIn) : List Nat → Nat → List Nat
  | [], _ => []
  | q :: qs, k => if v.c.getLsbD q then elem v.a v.w k :: expandFrom v qs (k + 1) else 0 :: expandFrom v qs k

/-- VEXP's results. -/
def vexpOut (v : VecIn) : VecOut :=
  { writes := [(0, .v (tileOf v.w (expandFrom v (List.range v.n) 0))),
      (1, .s (BitVec.ofNat 64 ((List.range v.n).filter (fun q => v.c.getLsbD q)).length))]
    conds := [] }

/-- VEXTR's results. -/
def vextrOut (v : VecIn) : VecOut :=
  { writes := [(1, .s (if v.sb.toNat < v.n then v.scalar (elem v.a v.w v.sb.toNat) else 0))], conds := [] }

/-- VINS's results. -/
def vinsOut (v : VecIn) : VecOut := v.build (fun q => if q = v.sb.toNat then elem v.a v.w 0 else elem v.c v.w q)

/-- VMPOP's results. -/
def vmpopOut (v : VecIn) : VecOut :=
  { writes := [(1, .s (BitVec.ofNat 64 (popcount (bitsAt v.a.toNat 0 v.n) v.n)))], conds := [] }

/-! ## The operations -/

/-- VTRN's check: a square tile (R194). -/
def okTrn (v : VecIn) : Bool := okMove v && v.rows == v.cols
/-- VPERM's check (R195). -/
def okPerm (v : VecIn) : Bool := okMove v && decide (v.n ≤ 512)
/-- VSHP's check: the tile fits under the new shape too (R195). -/
def okShp (v : VecIn) : Bool := okMove v && decide (shapeN v.newShape * v.w ≤ 8192)

/-- ROWGET (R194). -/
def execRowget (s : State) : Host.Outcome State Fault Refusal := vecOp .vxu 3 false okMove rowgetOut s
/-- ROWPUT (R194). -/
def execRowput (s : State) : Host.Outcome State Fault Refusal := vecOp .vxu 3 false okMove rowputOut s
/-- COLGET (R194). -/
def execColget (s : State) : Host.Outcome State Fault Refusal := vecOp .vxu 3 false okMove colgetOut s
/-- COLPUT (R194). -/
def execColput (s : State) : Host.Outcome State Fault Refusal := vecOp .vxu 3 false okMove colputOut s
/-- VTRN (R194). -/
def execVtrn (s : State) : Host.Outcome State Fault Refusal :=
  vecOp .vxu 3 false okTrn vtrnOut s
/-- VPERM (R195). -/
def execVperm (s : State) : Host.Outcome State Fault Refusal :=
  vecOp .vxu 3 false okPerm vpermOut s
/-- VBCAST (R195). -/
def execVbcast (s : State) : Host.Outcome State Fault Refusal := vecOp .vxu 3 false okMove vbcastOut s
/-- VRED (R196). -/
def execVred (s : State) : Host.Outcome State Fault Refusal := vecOp .vxu 12 false okRed vredOut s
/-- VSCAN (R196). -/
def execVscan (s : State) : Host.Outcome State Fault Refusal := vecOp .vxu 12 false okRed vscanOut s
/-- VCOMP (R197). -/
def execVcomp (s : State) : Host.Outcome State Fault Refusal := vecOp .vxu 6 false okMove vcompOut s
/-- VEXP (R197). -/
def execVexp (s : State) : Host.Outcome State Fault Refusal := vecOp .vxu 6 false okMove vexpOut s
/-- VEXTR (R197). -/
def execVextr (s : State) : Host.Outcome State Fault Refusal := vecOp .vxu 3 false okMove vextrOut s
/-- VINS (R197). -/
def execVins (s : State) : Host.Outcome State Fault Refusal := vecOp .vxu 3 false okMove vinsOut s
/-- VIOTA (R195). -/
def execViota (s : State) : Host.Outcome State Fault Refusal := vecOp .vxu 3 false okInt viotaOut s
/-- VMPOP (R197). -/
def execVmpop (s : State) : Host.Outcome State Fault Refusal := vecOp .vxu 3 false okAny vmpopOut s
/-- VSHP (R195). -/
def execVshp (s : State) : Host.Outcome State Fault Refusal :=
  vecOp .vxu 3 false okShp vshpOut s

/-! ## SFN (R199) -/

/-- The types of SFN. -/
def okSfn (v : VecIn) : Bool :=
  match v.form.type with
  | .fp .fp64 => v.fits 64
  | .fp .fp32 => v.fits 32
  | .fp .fp16 => v.fits 16
  | .fp .bf16 => v.fits 16
  | _ => false

/-- SFN's elements, each by itself. -/
def sfnOut (f : FFmt → VecIn → Nat → Nat × Flags) (v : VecIn) : VecOut :=
  tileOut v.w (v.map v.w (fun q => f v.fmt v (elem v.a v.w q)))

/-- RSQE (R96). -/
def execRsqe (s : State) : Host.Outcome State Fault Refusal :=
  vecOp .sfn 6 false okSfn (sfnOut (fun f _ x => estElem .rsqe f x)) s
/-- RCPE (R97). -/
def execRcpe (s : State) : Host.Outcome State Fault Refusal :=
  vecOp .sfn 6 false okSfn (sfnOut (fun f _ x => estElem .rcpe f x)) s
/-- EXP2E (R98). -/
def execExp2e (s : State) : Host.Outcome State Fault Refusal :=
  vecOp .sfn 6 false okSfn (sfnOut (fun f _ x => estElem .exp2e f x)) s
/-- LOG2E (R99). -/
def execLog2e (s : State) : Host.Outcome State Fault Refusal :=
  vecOp .sfn 6 false okSfn (sfnOut (fun f _ x => estElem .log2e f x)) s
/-- SQRT (R199): 40 clocks on every class (R182). -/
def execSqrt (s : State) : Host.Outcome State Fault Refusal :=
  guarded (shapeCheck okSfn) (fun t =>
    let v := vecIn t.turn.ops
    t.emitVec .sfn 40 (sfnOut (fun f u x => sqrtElem f u.mode (u.satFor u.form.type) x) v) v.ten false) s

end Sys2Proof.Machine
end

