-- ==== Sys2Proof/Machine/Lac.lean ====
section
/-! DEFINITION. The long accumulators of a VEC core (R201-R211). Every operation acts in clock t + 1 (R207). -/

namespace Sys2Proof.Machine

/-! ## Accumulator state -/

/-- The key of a lane. -/
def laneKey (k l : Nat) : Nat := k * 64 + l
/-- The integer of a lane (R202). -/
def Ctx.lane (x : Ctx) (k l : Nat) : Lane := x.lanes.get (laneKey k l) 0
/-- The flags of a lane: bit 0 I, bit 1 O, bit 2 N (R204). -/
def Ctx.lflag (x : Ctx) (k l : Nat) : BitVec 3 := x.lflags.get (laneKey k l) 0
/-- A lane replaced. -/
def Ctx.setLane (x : Ctx) (k l : Nat) (v : Lane) : Ctx := { x with lanes := x.lanes.set (laneKey k l) v }
/-- A lane's flags replaced. -/
def Ctx.setLflag (x : Ctx) (k l : Nat) (f : BitVec 3) : Ctx := { x with lflags := x.lflags.set (laneKey k l) f }
/-- Flag I. -/
def lI : BitVec 3 := 1
/-- Flag O. -/
def lO : BitVec 3 := 2
/-- Flag N. -/
def lN : BitVec 3 := 4
/-- A lane's flags with more of them set. -/
def Ctx.orLflag (x : Ctx) (k l : Nat) (f : BitVec 3) : Ctx := x.setLflag k l (x.lflag k l ||| f)
/-- β of an accumulator (R202). -/
def Ctx.beta (x : Ctx) (k : Nat) : Int := (x.xbase.get k 0).toInt
/-- The accumulator that port X selects (R205). -/
def accOf (o : Operands) : Nat := fld o.x 0 2

/-- An operation on the accumulator that X selects, which the next save writes (R213). -/
def accOp (f : Operands → Nat → Ctx → Ctx) (s : State) : State :=
  let o := s.turn.ops
  let k := accOf o
  s.modTurnCtx (fun x => { f o k x with lacDirty := x.lacDirty ||| BitVec.ofNat 4 (2 ^ k) })

/-! ## Adding into a lane (R206) -/

/-- The floor of an exact sum of finite terms in units of 2^β, and whether non-zero bits were dropped. -/
def floorUnits (beta : Int) (ts : List Exact) : Int × Bool :=
  match minExp ts with
  | none => (0, false)
  | some e0 =>
    let v := sumAt e0 ts
    if beta ≤ e0 then (v * 2 ^ (e0 - beta).toNat, false)
    else
      let d : Int := 2 ^ (beta - e0).toNat
      (v / d, decide (v % d ≠ 0))

/-- A term added into a lane (R206). -/
def Ctx.addTerm (x : Ctx) (k l : Nat) (ts : List Exact) : Ctx :=
  let r := floorUnits (x.beta k) ts
  let sum := (x.lane k l).toInt + r.1
  let out : Bool := decide (sum < -(2 : Int) ^ 2047) || decide ((2 : Int) ^ 2047 ≤ sum)
  (x.setLane k l (BitVec.ofInt 2048 sum)).orLflag k l ((if r.2 then lI else 0) ||| (if out then lO else 0))

/-- Whether a number is finite. -/
def Num.finite : Num → Bool
  | .fin _ _ _ => true
  | _ => false

/-- One lane's addition: the operand elements it uses, and its exact term. -/
def Ctx.addLane (x : Ctx) (k l : Nat) (used : List Num) (ts : List Exact) : Ctx :=
  if used.all Num.finite then x.addTerm k l ts else x.orLflag k l lN

/-- Additions into the selected lanes below a count. -/
def addLanes (count : Nat) (term : VecIn → FFmt → Nat → List Num × List Exact) (v : VecIn) (k : Nat) (x : Ctx) : Ctx :=
  ((List.range count).filter v.sel).foldl (fun y l =>
    let p := term v v.fmt l
    y.addLane k l p.1 p.2) x

/-- The check of the accumulating operations (R208). -/
def okLac (limit : Bool) (v : VecIn) : Bool := okSfn v && (!limit || decide (v.n ≤ 64))

/-- An element of a tile as a number. -/
def numAt (f : FFmt) (t : VReg) (q : Nat) : Num := f.decode (elem t f.width q)

/-- XADD's term. -/
def termAdd (v : VecIn) (f : FFmt) (l : Nat) : List Num × List Exact :=
  let a := numAt f v.a l
  ([a], [a.exact])

/-- XADD2's term. -/
def termAdd2 (v : VecIn) (f : FFmt) (l : Nat) : List Num × List Exact :=
  let a := numAt f v.a l
  let b := numAt f v.b l
  ([a, b], [a.mul b])

/-- XADD3's term. -/
def termAdd3 (v : VecIn) (f : FFmt) (l : Nat) : List Num × List Exact :=
  let a := numAt f v.a l
  let b := numAt f v.b l
  let c := numAt f v.c l
  ([a, b, c], [a.mul b, (a.mul c).neg])

/-- XDOT's term. -/
def termDot (v : VecIn) (f : FFmt) (i : Nat) : List Num × List Exact :=
  let js := (List.range v.cols).map (fun j => i * v.cols + j)
  (js.flatMap (fun q => [numAt f v.a q, numAt f v.b q]), js.map (fun q => (numAt f v.a q).mul (numAt f v.b q)))

/-- An accumulating operation (R206, R208). -/
def lacAdd (limit : Bool) (count : VecIn → Nat) (term : VecIn → FFmt → Nat → List Num × List Exact) (s : State) :
    Host.Outcome State Fault Refusal :=
  guarded (shapeCheck (okLac limit)) (accOp (fun o k x => let v := vecIn o; addLanes (count v) term v k x)) s

/-! ## The operations -/

/-- XWIN (R208). -/
def execXwin (s : State) : Host.Outcome State Fault Refusal :=
  .next (accOp (fun o k x =>
    let y := { x with xbase := x.xbase.set k (o.va.setWidth 13) }
    (List.range 64).foldl (fun z l => (z.setLane k l 0).setLflag k l 0) y) s)

/-- XCLR (R208). -/
def execXclr (s : State) : Host.Outcome State Fault Refusal :=
  .next (accOp (fun o k x =>
    ((List.range 64).filter (vecIn o).sel).foldl (fun y l => (y.setLane k l 0).setLflag k l 0) x) s)

/-- XADD (R206). -/
def execXadd (s : State) : Host.Outcome State Fault Refusal := lacAdd true VecIn.n termAdd s
/-- XADD2 (R206). -/
def execXadd2 (s : State) : Host.Outcome State Fault Refusal := lacAdd true VecIn.n termAdd2 s
/-- XADD3 (R206). -/
def execXadd3 (s : State) : Host.Outcome State Fault Refusal := lacAdd true VecIn.n termAdd3 s
/-- XDOT (R208). -/
def execXdot (s : State) : Host.Outcome State Fault Refusal := lacAdd false VecIn.rows termDot s

/-- The sign byte of a lane (R210). -/
def signByte (n : Lane) : Nat := if n.toInt < 0 then 255 else if n = 0 then 0 else 1

/-- XSGN (R210). -/
def execXsgn (s : State) : Host.Outcome State Fault Refusal :=
  let x := s.tctx
  let k := accOf s.turn.ops
  let d := (List.range 64).map (fun l => signByte (x.lane k l))
  let neg := (List.range 64).map (fun l => b2n (decide ((x.lane k l).toInt < 0)))
  .next (s.emit .lac 3 [(0, .v (tileOf 8 d)), (1, .s (BitVec.ofNat 64 (packBits 1 neg)))])

/-- One lane rounded (R209). -/
def rndLane (f : FFmt) (md : RMode) (sat : Bool) (beta : Int) (n : Lane) (fl : BitVec 3) : Nat × Flags :=
  if fl &&& lN ≠ 0 then (f.canonNaN, fIVL)
  else if n = 0 then (f.pack false 0 0, 0)
  else f.round md sat (decide (n.toInt < 0)) n.toInt.natAbs beta

/-- XRND (R209). -/
def execXrnd (s : State) : Host.Outcome State Fault Refusal :=
  guarded (shapeCheck (okLac true)) (fun t =>
    let x := t.tctx
    let v := vecIn t.turn.ops
    let k := accOf t.turn.ops
    let r := v.map v.w (fun q => rndLane v.fmt v.mode (v.satFor v.form.type) (x.beta k) (x.lane k q) (x.lflag k q))
    t.emitVec .lac 6 (tileOut v.w r) v.ten false) s

/-- The lane in place j of a group (R211). -/
def grpLane (o : Operands) (j : Nat) : Nat := 4 * fld o.x 7 4 + j

/-- The flags of a lane in the order {N, O, I} (R211). -/
def flagCode (f : BitVec 3) : Nat := f.toNat

/-- XGET (R211). -/
def execXget (s : State) : Host.Outcome State Fault Refusal :=
  let x := s.tctx
  let o := s.turn.ops
  let k := accOf o
  let d := (List.range 4).map (fun j => (x.lane k (grpLane o j)).toNat)
  let f := (List.range 4).map (fun j => flagCode (x.lflag k (grpLane o j)))
  .next (s.emit .lac 3 [(0, .v (tileOf 2048 d)), (1, .s (BitVec.ofNat 64 (packBits 3 f)))])

/-- The flags that FSEL names, as a mask over {N, O, I} (R205). -/
def fselMask (o : Operands) : BitVec 3 :=
  match fld o.x 4 2 with
  | 0 => lI
  | 1 => lO
  | 2 => lN
  | _ => 7

/-- XFLG (R211): FCLR clears the flags reported, in the clock in which they are read. -/
def execXflg (s : State) : Host.Outcome State Fault Refusal :=
  let o := s.turn.ops
  let k := accOf o
  let m := fselMask o
  let bits := (List.range 64).map (fun l => decide (s.tctx.lflag k l &&& m ≠ 0))
  let clr := bitAt o.x.toNat 11
  let t := if clr then accOp (fun _ k x => (List.range 64).foldl (fun y l => y.setLflag k l (y.lflag k l &&& ~~~m)) x) s else s
  .next (t.emit .lac 2 [(0, .v (maskVec bits)), (1, .s (BitVec.ofNat 64 (packBits 1 (bits.map b2n))))])

/-- XMOV with LOAD 0 (R211). -/
def execXmov (s : State) : Host.Outcome State Fault Refusal :=
  let src := fld s.turn.ops.x 2 2
  if src = accOf s.turn.ops then .next s
  else
    .next (accOp (fun _ k x =>
      let y := (List.range 64).foldl (fun y l => (y.setLane k l (x.lane src l)).setLflag k l (x.lflag src l)) x
      { y with xbase := y.xbase.set k (x.xbase.get src 0) }) s)

/-- XMOV with LOAD 1 (R211). -/
def execXmovLoad (s : State) : Host.Outcome State Fault Refusal :=
  .next (accOp (fun o k x =>
    (List.range 4).foldl (fun y j =>
      (y.setLane k (grpLane o j) (BitVec.ofNat 2048 (elem o.va 2048 j))).setLflag k (grpLane o j)
        (BitVec.ofNat 3 (fld o.vb (3 * j) 3))) x) s)

/-- XNEG (R208). -/
def execXneg (s : State) : Host.Outcome State Fault Refusal :=
  .next (accOp (fun o k x =>
    ((List.range 64).filter (vecIn o).sel).foldl (fun y l =>
      let n := x.lane k l
      (y.setLane k l (-n)).orLflag k l (if n.toInt = -(2 : Int) ^ 2047 then lO else 0)) x) s)

end Sys2Proof.Machine
end

