-- ==== Sys2Proof/Machine/Matrix.lean ====
section
/-! DEFINITION. The matrix arrays: leases (R311, R312, R314), typed buffers (R313), and MLOADW, MLOADA, MMUL, MZERO, MSTORE and MEPI
(R315-R320). -/

namespace Sys2Proof.Machine

/-! ## Typed buffers -/

/-- The first error of rows in a typed-buffer share or a scratch segment of a size: CAP_BOUNDS with the first failing offset
(R313). DEDUCED (log 35). -/
def areaErr (size off pitch rows len : Nat) : Option EngErr :=
  let at_ : Nat → Option EngErr := fun k =>
    let o := off + k * pitch
    if k < rows ∧ o + len > size then some (EngErr.of cCAP_BOUNDS (max o size) 0) else none
  if off + len > size then at_ 0
  else if pitch = 0 then none
  else at_ ((size - len - off) / pitch + 1)

/-- The share of a typed buffer that an array's entry reaches: 0 W, 1 A, 2 C (R222). -/
def State.arrayShareOf (s : State) (e buf : Nat) (q : QEnt) : Nat × Nat :=
  s.typedShare (engSite e) (engNum e) buf q.part

/-- Bytes of a typed buffer, or POISON with the offset (R422). -/
def State.typedRead (s : State) (area : Nat × Nat) (off n : Nat) : Except EngErr (List Byte) :=
  if s.isPoisoned (area.1 + off) n then .error (EngErr.of cPOISON off 0) else .ok (Memory.readN s.mem (area.1 + off) n)

/-- Bytes written to a typed buffer. -/
def State.typedWrite (s : State) (area : Nat × Nat) (off : Nat) (bs : List Byte) : State :=
  s.writeMem (Memory.cellsAt (area.1 + off) bs)

/-- An array's share changed. -/
def State.modArray (s : State) (e : Nat) (q : QEnt) (f : ArrayShare → ArrayShare) : State :=
  let k := arrayKey e q.part
  { s with arrays := s.arrays.set k (f (s.arrayShare k)) }

/-- Conditions put into MSTAT (R311). -/
def State.orMstat (s : State) (e : Nat) (q : QEnt) (f : Flags) : State :=
  s.modArray e q (fun a => { a with mstat := a.mstat ||| f })

/-! ## Leases (R312, R314) -/

/-- MLEASE (R314): an MLEASE of the present holder ends its lease; the request then waits for the arbiter in its queue. -/
def execMlease (_ : TcHdr) (_ : MleaseBody) (s : State) : Host.Outcome State Fault Refusal :=
  let k := arrayKey s.turn.engine s.turn.part
  let a := s.arrayShare k
  if a.lhold = some s.turn.core then .next { s with arrays := s.arrays.set k a.endLease } else .next s

/-- The oldest entry of each core in a queue. -/
def coreHeads : List QEnt → List QEnt
  | [] => []
  | q :: r => q :: (coreHeads r).filter (fun x => x.core != q.core)

/-- Whether an entry may be considered: with B set it waits for every earlier entry of its queue (R122). -/
def barrierOk (queue : List QEnt) (busy : Bool) (q : QEnt) : Bool :=
  !q.word.getLsbD 246 || (!busy && (match queue.head? with | some h => h.stamp == q.stamp | none => true))

/-- Of lease requests, the one whose core follows LAST first in cyclic order (R312). -/
def nextLease (last : Nat) : List QEnt → Option QEnt
  | [] => none
  | q :: r =>
    let d : QEnt → Nat := fun x => (x.core + 255 - last) % 256
    match nextLease last r with
    | none => some q
    | some p => if d q ≤ d p then some q else some p

/-- The request that the arbiter of an array would grant, where none is granted. -/
def State.leasePick (s : State) (e part : Nat) : Option QEnt :=
  let x := s.eng e
  let mine := x.queue.filter (fun q => q.part == part)
  let busy := x.cur.isSome
  nextLease (s.arrayShare (arrayKey e part)).last
    ((coreHeads mine).filter (fun q => opcOf q.word == 0x20 && barrierOk mine busy q))

/-- LEASE_GRANT (R312): the arbiter of the turn's array grants the turn's partition's next request, which completes. -/
def execLeaseGrant (s : State) : Host.Outcome State Fault Refusal :=
  let e := s.turn.engine
  let k := arrayKey e s.turn.part
  let a := s.arrayShare k
  if a.lhold.isSome then .next s
  else
    match s.leasePick e s.turn.part with
    | none => .next s
    | some q =>
      let x := s.eng e
      let t := s.setEng e { x with queue := x.queue.filter (fun y => y.stamp != q.stamp), pops := x.pops + 1 }
      let t := { t with arrays := t.arrays.set k { a with lhold := some q.core, run := fld q.word 225 7 } }
      .next ((t.completeWord q).chainWordDone q)

/-- MRELEASE (R314). -/
def execMrelease (_ : TcHdr) (s : State) : Host.Outcome State Fault Refusal :=
  runEntry false (fun _ _ => none) (fun t a =>
    .done (t.modArray s.turn.engine a.ent (fun x => if x.lhold = some a.ent.core then x.endLease else x))) s

/-! ## MLOADW and MLOADA (R315) -/

/-- The scratch offset of granule g of row r of a shared-scratch load. -/
def mloadGran (sbase rpitch tpitch rot rpt rlen r g : Nat) : Nat :=
  let n := rlen / 64
  let rr := r % rpt
  sbase + r / rpt * tpitch + rr * rpitch + 64 * ((g + rr * rot) % n)

/-- The first error of a load's source in shared scratch. -/
def mloadScrErr (size sbase rpitch tpitch rpt rlen rows : Nat) : Option EngErr :=
  firstErr ((List.range rows).map (fun r =>
    let o := sbase + r / rpt * tpitch + r % rpt * rpitch
    if o + rlen > size then some (EngErr.of cCAP_BOUNDS (max o size) 0) else none))

/-- The checks of a load into typed buffer buf. -/
def mloadChk (e buf : Nat) (b : MloadBody) (s : State) (q : QEnt) : Option EngErr :=
  let src : Option EngErr := match b.src with
    | .buf soff spitch => s.rowsErr q q.h0 soff.toNat (pitch32 spitch) b.rows.toNat b.rlen.toNat .r
    | .shared sbase rpitch tpitch _ rpt =>
      mloadScrErr (s.crew q.crew).scrLen sbase.toNat rpitch.toNat tpitch.toNat rpt.toNat b.rlen.toNat b.rows.toNat
  firstErr [src, areaErr (s.arrayShareOf e buf q).2 b.doff.toNat b.dpitch.toNat b.rows.toNat b.rlen.toNat]

/-- A row of a load put into its typed buffer. -/
def mloadRowDone (e buf : Nat) (b : MloadBody) (s : State) (a : Act) (bs : List Byte) : UnitRes :=
  let t := s.typedWrite (s.arrayShareOf e buf a.ent) (b.doff.toNat + a.prog * b.dpitch.toNat) bs
  if a.prog + 1 ≥ b.rows.toNat then .done t else .more t (a.prog + 1)

/-- The addresses of the granules of a row in shared scratch, in the order of the row. -/
def State.mloadGrans (s : State) (q : QEnt) (sbase rpitch tpitch rot rpt rlen r : Nat) : List Nat :=
  let c := s.crew q.crew
  (List.range (rlen / 64)).map (fun g => ssmAddr c.site (c.scr + mloadGran sbase rpitch tpitch rot rpt rlen r g))

/-- A step of a load (R315): a row read from a buffer, or the requests for a row's granules of shared scratch and, once R220 has served
them, the row. DESIGN CHOICE (log 30). -/
def mloadUnit (e buf : Nat) (b : MloadBody) (s : State) (a : Act) : UnitRes :=
  match b.src with
  | .buf soff spitch =>
    (match s.engRead a.ent.h0 ((soff.toNat : Int) + pitch32 spitch * a.prog).toNat b.rlen.toNat with
     | .error x => .fail x
     | .ok p => mloadRowDone e buf b p.2 a p.1)
  | .shared sbase rpitch tpitch rot rpt =>
    match a.aux.head?.bind (fun id => (s.ssmGroups.find id).map (fun g => (id, g))) with
    | some (id, g) =>
      if g.left = 0 then
        let bytes := g.addrs.flatMap (fun o => (g.got.filter (fun c => c.1 / 64 == o / 64)).map (fun c => c.2))
        mloadRowDone e buf b ({ s with ssmGroups := s.ssmGroups.erase id }.carry []) a bytes
      else .wait
    | none =>
      let gs := s.mloadGrans a.ent sbase.toNat rpitch.toNat tpitch.toNat rot.toNat rpt.toNat b.rlen.toNat a.prog
      let c := s.crew a.ent.crew
      match gs.find? (fun o => s.isPoisoned o 64) with
      | some o => .err (EngErr.of cPOISON (o - ssmAddr c.site c.scr) 0)
      | none => .more ((s.ssmFetch e c.site a.ent.crew gs).carry [s.stamp]) a.prog

/-- A load into a typed buffer. -/
def mload (buf : Nat) (b : MloadBody) (s : State) : Host.Outcome State Fault Refusal :=
  runEntry (b.rows == 0 || b.rlen == 0) (mloadChk s.turn.engine buf b) (mloadUnit s.turn.engine buf b) s

/-- MLOADW (R315). -/
def execMloadw (_ : TcHdr) (b : MloadBody) (s : State) : Host.Outcome State Fault Refusal := mload 0 b s
/-- MLOADA (R315). -/
def execMloada (_ : TcHdr) (b : MloadBody) (s : State) : Host.Outcome State Fault Refusal := mload 1 b s

/-! ## MMUL (R313, R316, R317) -/

/-- A matrix element format (R313): a floating format, or BFP of a width. -/
inductive MFmt where
  | fp (f : FFmt)
  | bfp (w : Nat)
  deriving DecidableEq, Repr

/-- The format of a code; none for an illegal one. -/
def mfmtOf (c : Nat) : Option MFmt :=
  match c with
  | 0 => some (.fp .e4m3)
  | 1 => some (.fp .e5m2)
  | 2 => some (.fp .bf16)
  | 3 => some (.fp .fp32)
  | 4 => some (.fp .fp64)
  | c => if 8 ≤ c ∧ c ≤ 14 then some (.bfp (c - 6)) else none

/-- The pairs of formats that MMUL accepts (R313). -/
def mfmtPair (a w : MFmt) : Bool :=
  let narrow : MFmt → Bool := fun x => match x with
    | .bfp _ => true
    | .fp .e4m3 => true
    | .fp .e5m2 => true
    | _ => false
  (narrow a && narrow w) || (a == w && !narrow a)

/-- The bytes of a row or column of k elements. -/
def MFmt.span (m : MFmt) (k : Nat) : Nat :=
  match m with
  | .fp f => k * (f.width / 8)
  | .bfp w => k / 32 * bfpSlotBytes w

/-- Where element k lies from the start of its row or column, and how many bytes hold it. -/
def MFmt.place (m : MFmt) (k : Nat) : Nat × Nat :=
  match m with
  | .fp f => (k * (f.width / 8), f.width / 8)
  | .bfp w => (k / 32 * bfpSlotBytes w, bfpSlotBytes w)

/-- Element k read from the bytes that hold it. A BFP block of the reserved width decodes as the canonical NaN, which is quiet: a vector
conversion alone raises invalid for it (R79, R84). -/
def MFmt.value (m : MFmt) (k : Nat) (bits : Nat) : Num :=
  match m with
  | .fp f => f.decode bits
  | .bfp w =>
    match bfpDecodeElem w bits (k % 32) with
    | .nan _ => .nan false
    | x => x

/-- The operands of a k-group of one row or column: its elements' numbers, or POISON. -/
def State.groupNums (s : State) (area : Nat × Nat) (m : MFmt) (start : Nat) : List Nat → Except EngErr (List Num)
  | [] => .ok []
  | k :: ks =>
    let p := m.place k
    match s.typedRead area (start + p.1) p.2 with
    | .error r => .error r
    | .ok bs =>
      match s.groupNums area m start ks with
      | .error r => .error r
      | .ok xs => .ok (m.value k (ofBytes bs) :: xs)

/-- Results of a list of steps, up to the first error. -/
def allOk {α : Type} : List (Except EngErr α) → Except EngErr (List α)
  | [] => .ok []
  | .error r :: _ => .error r
  | .ok x :: xs =>
    match allOk xs with
    | .error r => .error r
    | .ok ys => .ok (x :: ys)

/-- The format of C. -/
def cFmt (a w : MFmt) : FFmt :=
  match a, w with
  | .fp .fp64, .fp .fp64 => .fp64
  | _, _ => .fp32

/-- One group of R92: the accumulator with its products, summed exactly and rounded once. DEDUCED (log 70). -/
def dotGroup (f : FFmt) (acc : Nat) (as bs : List Num) : Nat × Flags :=
  f.deliver .rne false (exactSum .rne ((f.decode acc).exact :: (as.zip bs).map (fun p => p.1.mul p.2)))

/-- MMUL's formats. -/
def mmulFmts (b : MmulBody) : MFmt × MFmt :=
  ((mfmtOf b.af.toNat).getD (.fp .fp32), (mfmtOf b.wf.toNat).getD (.fp .fp32))

/-- MMUL's checks. DEDUCED (log 41). -/
def mmulChk (e : Nat) (b : MmulBody) (s : State) (q : QEnt) : Option EngErr :=
  let f := mmulFmts b
  let k := b.k.toNat
  let ce := (cFmt f.1 f.2).width / 8
  firstErr [areaErr (s.arrayShareOf e 1 q).2 b.aoff.toNat b.apitch.toNat (b.mlast.toNat + 1) (f.1.span k),
    areaErr (s.arrayShareOf e 0 q).2 b.woff.toNat b.wpitch.toNat (b.nlast.toNat + 1) (f.2.span k),
    areaErr (s.arrayShareOf e 2 q).2 b.coff.toNat b.cpitch.toNat (b.mlast.toNat + 1) ((b.nlast.toNat + 1) * ce)]

/-- What an MMUL's group leaves at each C position: the sum of its only element, and where rows of the tile overlap, so that several
elements have one position, a free value with free conditions. DESIGN CHOICE (log 64). -/
def mmulPlace (b : MmulBody) (ce draws : Nat) (cs : List (Nat × Nat × Flags)) : List (Nat × Nat × Flags) :=
  if b.mlast = 0 ∨ (b.nlast.toNat + 1) * ce ≤ b.cpitch.toNat then cs
  else
    cs.zipIdx.map (fun c =>
      if 1 < (cs.filter (fun d => d.1 == c.1.1)).length then
        (c.1.1, (Config.freeWord (draws + c.2)).toNat % 2 ^ (8 * ce), BitVec.ofNat 5 (Config.draw (draws + c.2)))
      else c.1)

/-- One k-group of an MMUL. DEDUCED (log 41). -/
def mmulUnit (e : Nat) (b : MmulBody) (s : State) (a : Act) : UnitRes :=
  let g := a.prog
  let q := a.ent
  let f := mmulFmts b
  let fc := cFmt f.1 f.2
  let ce := fc.width / 8
  let k := b.k.toNat
  let ks := (List.range (min 16 (k - 16 * g))).map (fun i => 16 * g + i)
  let aArea := s.arrayShareOf e 1 q
  let wArea := s.arrayShareOf e 0 q
  let cArea := s.arrayShareOf e 2 q
  let rows := allOk ((List.range (b.mlast.toNat + 1)).map (fun m =>
    s.groupNums aArea f.1 (b.aoff.toNat + m * b.apitch.toNat) ks))
  let cols := allOk ((List.range (b.nlast.toNat + 1)).map (fun n =>
    s.groupNums wArea f.2 (b.woff.toNat + n * b.wpitch.toNat) ks))
  match rows, cols with
  | .error r, _ => .err r
  | _, .error r => .err r
  | .ok as, .ok ws =>
    let cells := allOk (as.zipIdx.flatMap (fun p => ws.zipIdx.map (fun w =>
      let off := b.coff.toNat + p.2 * b.cpitch.toNat + w.2 * ce
      match s.typedRead cArea off ce with
      | .error r => .error r
      | .ok bs => .ok (off, dotGroup fc (ofBytes bs) p.1 w.1))))
    match cells with
    | .error r => .err r
    | .ok sums =>
      let cs := mmulPlace b ce s.draws sums
      let t := if b.mlast = 0 ∨ (b.nlast.toNat + 1) * ce ≤ b.cpitch.toNat then s else { s with draws := s.draws + cs.length }
      let t := cs.foldl (fun u c => u.typedWrite cArea c.1 (toBytes c.2.1 ce)) t
      let t := t.orMstat e q (orFlags (cs.map (fun c => c.2.2)))
      if 16 * (g + 1) ≥ k then .done t else .more t (g + 1)

/-- MMUL (R316). -/
def execMmul (_ : TcHdr) (b : MmulBody) (s : State) : Host.Outcome State Fault Refusal :=
  runEntry (b.k == 0) (mmulChk s.turn.engine b) (mmulUnit s.turn.engine b) s

/-! ## MZERO (R318) -/

/-- MZERO (R318). -/
def execMzero (_ : TcHdr) (b : MzeroBody) (s : State) : Host.Outcome State Fault Refusal :=
  let e := s.turn.engine
  runEntry (b.rows == 0 || b.rlen == 0)
    (fun t q => areaErr (t.arrayShareOf e 2 q).2 b.coff.toNat b.cpitch.toNat b.rows.toNat b.rlen.toNat)
    (fun t a =>
      .done ((List.range b.rows.toNat).foldl (fun u r =>
        u.typedWrite (t.arrayShareOf e 2 a.ent) (b.coff.toNat + r * b.cpitch.toNat) (List.replicate b.rlen.toNat 0)) t)) s

/-! ## MSTORE (R319) -/

/-- The format that DF names. -/
def dfFmt (c : Nat) : Option FFmt :=
  match c with
  | 0 => some .fp32
  | 1 => some .bf16
  | 2 => some .fp16
  | 3 => some .e4m3
  | 4 => some .e5m2
  | 5 => some .fp64
  | _ => none

/-- The format of C elements that CW names. -/
def cwFmt (cw : Bool) : FFmt := if cw then .fp64 else .fp32

/-- The update region that an MSTORE with UPD sends to: its operator must match DF. -/
def State.mstoreRegion (s : State) (b : MstoreBody) (q : QEnt) : Option Nat :=
  let r := s.viewRange (siteOf q.core) q.h1
  match s.regionHolding (hBid q.h1) r.1 r.2 with
  | none => none
  | some k =>
    let u := (s.region k).uop.toNat
    if (b.df = 0 ∧ u = 3) ∨ (b.df = 1 ∧ u = 4) then some k else none

/-- MSTORE's checks. -/
def mstoreChk (e : Nat) (b : MstoreBody) (s : State) (q : QEnt) : Option EngErr :=
  let n := b.nclast.toNat + 1
  let de := ((dfFmt b.df.toNat).getD .fp32).width / 8
  let dst := s.rowsErr q q.h1 b.doff.toNat (pitch32 b.dpitch) b.rows.toNat (n * de) (if b.upd then .u else .w)
  let reg : Option EngErr :=
    if b.upd ∧ (s.mstoreRegion b q).isNone then some (EngErr.engine 0x205) else none
  firstErr [areaErr (s.arrayShareOf e 2 q).2 b.coff.toNat b.cpitch.toNat b.rows.toNat (n * ((cwFmt b.cw).width / 8)),
    dst, if b.sen then s.entErr q q.h1 b.soffs.toNat 8 .w else none, reg]

/-- Element j of row r of an MSTORE, converted: its bits and conditions. -/
def mstoreElem (b : MstoreBody) (r j : Nat) (c : Nat) : Nat × Flags :=
  let f := (dfFmt b.df.toNat).getD .fp32
  let idx := r * (b.nclast.toNat + 1) + j
  let md := if b.rnd = 5 ∧ b.df = 3 then modeOf 5 0 true b.ph.toNat idx else plainMode b.rnd.toNat
  f.deliver md b.sat ((cwFmt b.cw).decode c).exact

/-- The end of an MSTORE: its status word once every pair is accepted (R319). -/
def mstoreEnd (e : Nat) (b : MstoreBody) (s : State) (a : Act) : UnitRes :=
  let pairs := (match (s.eng e).cur with | some c => c.pairs | none => [])
  if !pairs.isEmpty then .wait
  else if b.sen then
    let d := hAddr a.ent.h1 b.soffs.toNat
    if s.writeWaits d 8 then .wait
    else
      let m := (s.arrayShare (arrayKey e a.ent.part)).mstat
      .done ((s.engWrite d (toBytes m.toNat 8)).modArray e a.ent (fun x => { x with mstat := 0 }))
  else .done s

/-- One row of an MSTORE. -/
def mstoreRow (e : Nat) (b : MstoreBody) (s : State) (a : Act) (r : Nat) : UnitRes :=
  let q := a.ent
  let n := b.nclast.toNat + 1
  let ce := (cwFmt b.cw).width / 8
  let de := ((dfFmt b.df.toNat).getD .fp32).width / 8
  let off := ((b.doff.toNat : Int) + pitch32 b.dpitch * r).toNat
  match s.typedRead (s.arrayShareOf e 2 q) (b.coff.toNat + r * b.cpitch.toNat) (n * ce) with
  | .error x => .err x
  | .ok bs =>
    let v := (List.range n).map (fun j => mstoreElem b r j (ofBytes ((bs.drop (j * ce)).take ce)))
    let t := s.orMstat e q (orFlags (v.map (fun p => p.2)))
    if b.upd then
      let ps := v.zipIdx.map (fun p =>
        { region := (s.mstoreRegion b q).getD 0, off := off + p.2 * de, addr := hAddr q.h1 (off + p.2 * de),
          val := BitVec.ofNat 64 p.1.1, h := q.h1, seq := 0 : UPair })
      .more (t.modCur e (fun x => { x with pairs := x.pairs ++ ps })) (r + 1)
    else if s.writeWaits (hAddr q.h1 off) (n * de) then .wait
    else .more (t.engWrite (hAddr q.h1 off) (v.flatMap (fun p => toBytes p.1 de))) (r + 1)

/-- One unit of an MSTORE. -/
def mstoreUnit (e : Nat) (b : MstoreBody) (s : State) (a : Act) : UnitRes :=
  if a.prog < b.rows.toNat then mstoreRow e b s a a.prog else mstoreEnd e b s a

/-- MSTORE (R319). -/
def execMstore (_ : TcHdr) (b : MstoreBody) (s : State) : Host.Outcome State Fault Refusal :=
  runEntry (b.rows == 0) (mstoreChk s.turn.engine b) (mstoreUnit s.turn.engine b) s

/-! ## MEPI (R320) -/

/-- MEPI's checks. -/
def mepiChk (e : Nat) (b : MepiBody) (s : State) (q : QEnt) : Option EngErr :=
  let n := (b.nclast.toNat + 1) * 4
  let size := (s.arrayShareOf e 2 q).2
  firstErr [areaErr size b.coff.toNat b.cpitch.toNat b.rows.toNat n,
    if b.ben then areaErr size b.boff.toNat 0 1 n else none]

/-- One element of MEPI: the value written and its conditions. -/
def mepiElem (b : MepiBody) (c bias : Nat) : Nat × Flags :=
  let f : FFmt := .fp32
  let r : Nat × Flags :=
    if b.ben then f.deliver .rne false (exactSum .rne [(f.decode c).exact, (f.decode bias).exact]) else (c, 0)
  if (f.decode r.1).isNaN then (f.canonNaN, r.2)
  else if b.cen then ((fpMinMax f false (fpMinMax f true r.1 b.lo.toNat).1 b.hi.toNat).1, r.2)
  else r

/-- One element of MEPI in place, after the elements before it. -/
def mepiStep (b : MepiBody) (area : Nat × Nat) (p : Except EngErr (State × Flags)) (r j : Nat) : Except EngErr (State × Flags) :=
  match p with
  | .error x => .error x
  | .ok (s, fl) =>
    let off := b.coff.toNat + r * b.cpitch.toNat + 4 * j
    match s.typedRead area off 4, (if b.ben then s.typedRead area (b.boff.toNat + 4 * j) 4 else .ok []) with
    | .error x, _ => .error x
    | _, .error x => .error x
    | .ok c, .ok v =>
      let w := mepiElem b (ofBytes c) (ofBytes v)
      .ok (s.typedWrite area off (toBytes w.1 4), fl ||| w.2)

/-- MEPI's elements in order. -/
def mepiUnit (e : Nat) (b : MepiBody) (s : State) (a : Act) : UnitRes :=
  let area := s.arrayShareOf e 2 a.ent
  let idx := (List.range b.rows.toNat).flatMap (fun r => (List.range (b.nclast.toNat + 1)).map (fun j => (r, j)))
  match idx.foldl (fun p x => mepiStep b area p x.1 x.2) (.ok (s, 0)) with
  | .error x => .err x
  | .ok p => .done (p.1.orMstat e a.ent p.2)

/-- MEPI (R320). -/
def execMepi (_ : TcHdr) (b : MepiBody) (s : State) : Host.Outcome State Fault Refusal :=
  runEntry (b.rows == 0) (mepiChk s.turn.engine b) (mepiUnit s.turn.engine b) s

end Sys2Proof.Machine
end

