-- ==== Sys2Proof/Machine/Legal.lean ====
section
/-! DEFINITION. What makes an encoding legal (R107-R120, R124, R126, R289): the opcode map, the rules on moves and bundles, and the
requirements that the descriptions of tile commands and launch packets put on their fields. -/

namespace Sys2Proof.Machine

/-! ## The opcode map (R121) -/

/-- The opcodes of the scalar integer units (R121). -/
def aluMap (u : AluUnit) (opc : Nat) : Option Instr :=
  match opc with
  | 0x00 => some (.add u)
  | 0x01 => some (.sub u)
  | 0x02 => some (.addw u)
  | 0x03 => some (.subw u)
  | 0x04 => some (.and u)
  | 0x05 => some (.or u)
  | 0x06 => some (.xor u)
  | 0x07 => some (.andn u)
  | 0x08 => some (.shl u)
  | 0x09 => some (.shr u)
  | 0x0A => some (.sra u)
  | 0x0B => some (.shlw u)
  | 0x0C => some (.shrw u)
  | 0x0D => some (.sraw u)
  | 0x0E => some (.rol u)
  | 0x0F => some (.ror u)
  | 0x10 => some (.clz u)
  | 0x11 => some (.ctz u)
  | 0x12 => some (.popc u)
  | 0x13 => some (.brev u)
  | 0x14 => some (.bswap u)
  | 0x18 => some (.eq u)
  | 0x19 => some (.ne u)
  | 0x1A => some (.lt u)
  | 0x1B => some (.ltu u)
  | 0x1C => some (.le u)
  | 0x1D => some (.leu u)
  | 0x20 => some (.min u)
  | 0x21 => some (.minu u)
  | 0x22 => some (.max u)
  | 0x23 => some (.maxu u)
  | 0x24 => some (.sel u)
  | 0x28 => some (.sext8 u)
  | 0x29 => some (.sext16 u)
  | 0x2A => some (.sext32 u)
  | 0x2B => some (.zext8 u)
  | 0x2C => some (.zext16 u)
  | 0x2D => some (.zext32 u)
  | 0x30 => some (.extr u)
  | 0x31 => some (.ins u)
  | 0x32 => some (.pass u)
  | _ => none

/-- The opcodes of MUL (R121). -/
def mulMap (opc : Nat) : Option Instr :=
  match opc with
  | 0x00 => some .mull
  | 0x01 => some .mulh
  | 0x02 => some .mulhu
  | 0x03 => some .mulw
  | 0x04 => some .div
  | 0x05 => some .divu
  | 0x06 => some .rem
  | 0x07 => some .remu
  | _ => none

/-- The opcodes of BRU (R121). -/
def bruMap (opc : Nat) : Option Instr :=
  match opc with
  | 0x00 => some .jmp
  | 0x01 => some .jmpr
  | 0x02 => some .call
  | 0x03 => some .ret
  | 0x04 => some .loop
  | 0x05 => some .trap
  | 0x06 => some .halt
  | 0x07 => some .nopw
  | _ => none

/-- The opcodes of LSU (R121). -/
def lsuMap (opc : Nat) : Option Instr :=
  match opc with
  | 0x00 => some .ldb
  | 0x01 => some .ldbu
  | 0x02 => some .ldh
  | 0x03 => some .ldhu
  | 0x04 => some .ldw
  | 0x05 => some .ldwu
  | 0x06 => some .ldd
  | 0x08 => some .stb
  | 0x09 => some .sth
  | 0x0A => some .stw
  | 0x0B => some .std
  | 0x10 => some .gldb
  | 0x11 => some .gldh
  | 0x12 => some .gldw
  | 0x13 => some .gldd
  | 0x18 => some .gstb
  | 0x19 => some .gsth
  | 0x1A => some .gstw
  | 0x1B => some .gstd
  | 0x20 => some .pref
  | _ => none

/-- The opcodes of SYN (R121). -/
def synMap (opc : Nat) : Option Instr :=
  match opc with
  | 0x00 => some .acq
  | 0x01 => some .tacq
  | 0x02 => some .rel
  | 0x04 => some .fence
  | 0x05 => some .xfence
  | 0x08 => some .waitv
  | 0x09 => some .waitc
  | 0x0A => some .waitt
  | 0x0B => some .ffr
  | 0x10 => some .fladd
  | 0x11 => some .flset
  | 0x12 => some .flrd
  | 0x18 => some .sigrd
  | 0x19 => some .sigwt
  | _ => none

/-- The opcodes of CMD (R121). -/
def cmdMap (opc : Nat) : Option Instr :=
  match opc with
  | 0x00 => some .push
  | 0x01 => some .pusht
  | 0x02 => some .qfree
  | _ => none

/-- The opcodes of UPD (R121). -/
def updMap (opc : Nat) : Option Instr :=
  match opc with
  | 0x00 => some .updOpen
  | 0x01 => some .emit
  | 0x02 => some .emitv
  | 0x03 => some .flush
  | 0x04 => some .close
  | _ => none

/-- The opcodes of SYS (R121). -/
def sysMap (opc : Nat) : Option Instr :=
  match opc with
  | 0x00 => some .csrr
  | 0x01 => some .csrw
  | 0x02 => some .csrs
  | 0x03 => some .csrc
  | 0x08 => some .alloc
  | 0x09 => some .free
  | 0x0A => some .retain
  | 0x0B => some .hand
  | 0x0C => some .hinfo
  | 0x0D => some .hld
  | 0x10 => some .tret
  | 0x11 => some .yield
  | 0x18 => some .dtrd
  | 0x1F => some .diag
  | _ => none

/-- The opcodes of STR (R121). -/
def strMap (opc : Nat) : Option Instr :=
  match opc with
  | 0x00 => some .sopen
  | 0x01 => some .sstart
  | 0x02 => some .spop
  | 0x03 => some .sstat
  | 0x04 => some .sclose
  | _ => none

/-- The opcodes of the vector arithmetic units (R121). -/
def vecMap (u : VecUnit) (opc : Nat) : Option Instr :=
  match opc with
  | 0x00 => some (.vadd u)
  | 0x01 => some (.vsub u)
  | 0x02 => some (.vmul u)
  | 0x03 => some (.vfma u)
  | 0x04 => some (.vfms u)
  | 0x05 => some (.vfnma u)
  | 0x06 => some (.vfmac u)
  | 0x07 => some (.vmin u)
  | 0x08 => some (.vmax u)
  | 0x09 => some (.vabs u)
  | 0x0A => some (.vneg u)
  | 0x0B => some (.vcmp u)
  | 0x0C => some (.vsel u)
  | 0x0D => some (.vcvt u)
  | 0x0E => some (.vrnd u)
  | 0x10 => some (.viadd u)
  | 0x11 => some (.visub u)
  | 0x12 => some (.vimul u)
  | 0x13 => some (.vimulh u)
  | 0x14 => some (.vimad u)
  | 0x15 => some (.vimin u)
  | 0x16 => some (.vimax u)
  | 0x17 => some (.viabs u)
  | 0x18 => some (.vicmp u)
  | 0x20 => some (.vand u)
  | 0x21 => some (.vor u)
  | 0x22 => some (.vxor u)
  | 0x23 => some (.vshl u)
  | 0x24 => some (.vshr u)
  | 0x25 => some (.vsra u)
  | 0x26 => some (.vrot u)
  | 0x28 => some (.vdot4 u)
  | 0x29 => some (.vdotb u)
  | _ => none

/-- The opcodes of VXU (R121). -/
def vxuMap (opc : Nat) : Option Instr :=
  match opc with
  | 0x00 => some .rowget
  | 0x01 => some .rowput
  | 0x02 => some .colget
  | 0x03 => some .colput
  | 0x04 => some .vtrn
  | 0x08 => some .vperm
  | 0x09 => some .vbcast
  | 0x10 => some .vred
  | 0x11 => some .vscan
  | 0x12 => some .vcomp
  | 0x13 => some .vexp
  | 0x18 => some .vextr
  | 0x19 => some .vins
  | 0x20 => some .viota
  | 0x21 => some .vmpop
  | 0x22 => some .vshp
  | 0x28 => some .vgthl
  | 0x29 => some .vsctl
  | _ => none

/-- The opcodes of VLS (R121). -/
def vlsMap (opc : Nat) : Option Instr :=
  match opc with
  | 0x00 => some .vld
  | 0x01 => some .vst
  | 0x02 => some .vlds
  | 0x03 => some .vsts
  | 0x04 => some .vld2d
  | 0x05 => some .vst2d
  | 0x08 => some .vgld
  | 0x09 => some .vgst
  | 0x0A => some .vpref
  | _ => none

/-- The opcodes of SFN (R121). -/
def sfnMap (opc : Nat) : Option Instr :=
  match opc with
  | 0x00 => some .rsqe
  | 0x01 => some .rcpe
  | 0x02 => some .exp2e
  | 0x03 => some .log2e
  | 0x04 => some .sqrt
  | _ => none

/-- The opcodes of LAC (R121). -/
def lacMap (opc : Nat) : Option Instr :=
  match opc with
  | 0x00 => some .xwin
  | 0x01 => some .xclr
  | 0x02 => some .xadd
  | 0x03 => some .xadd2
  | 0x04 => some .xadd3
  | 0x05 => some .xdot
  | 0x06 => some .xsgn
  | 0x07 => some .xrnd
  | 0x08 => some .xget
  | 0x09 => some .xflg
  | 0x0A => some .xmov
  | 0x0B => some .xneg
  | _ => none

/-- The operation that a trigger of a unit starts; none where R121 has no mnemonic. LAC opcode 0x0A is XMOV here; port X makes it
XMOV_LOAD (R211). -/
def opOf (fu : FU) (opc : Nat) : Option Instr :=
  match fu with
  | .srf => none
  | .prf => none
  | .crf => none
  | .vrf => none
  | .ala => aluMap .ala opc
  | .alb => aluMap .alb opc
  | .mul => mulMap opc
  | .bru => bruMap opc
  | .lsu => lsuMap opc
  | .syn => synMap opc
  | .cmd => cmdMap opc
  | .upd => updMap opc
  | .sys => sysMap opc
  | .str => strMap opc
  | .vaa => vecMap .vaa opc
  | .vab => vecMap .vab opc
  | .vxu => vxuMap opc
  | .vls => vlsMap opc
  | .sfn => sfnMap opc
  | .lac => lacMap opc

/-! ## Moves and bundles (R108, R111, R117-R120) -/

/-- The kind of a destination; none for one that R119 and R121 do not list. vec says that the core is of a VEC chiplet.
DEDUCED (log 5). -/
def dstKind (vec : Bool) (d : Dst) : Option PKind :=
  match d with
  | .srf _ => some .s
  | .prf r => if r = 0 then none else some .s
  | .mrf _ => some .v
  | .crf _ => some .k
  | .vrf _ => some .v
  | .port fu sel => if fu = .lac ∧ !vec then none else portKind fu sel.toNat
  | .trig fu opc => if (fu = .lac ∧ !vec) ∨ (opOf fu opc.toNat).isNone then none else portKind fu 0

/-- The kind of a source; none for one that R114 and R119 do not list. limm says that the bundle has a long immediate. -/
def srcKind (vec limm : Bool) (s : Src) : Option PKind :=
  match s with
  | .srf _ => some .s
  | .prf _ => some .s
  | .crf _ => some .k
  | .vrf _ => some .v
  | .mrf _ => some .v
  | .sill _ => some .s
  | .vsill _ => some .v
  | .win fu port _ => if fu = .lac ∧ !vec then none else resKind fu port.toNat
  | .imm _ => some .s
  | .bcast _ => some .v
  | .limm => if limm then some .s else none
  | _ => some .s

/-- Whether a move of a slot keeps the rules of R117-R119: a scalar slot reads and writes S and K items only, a vector slot V items,
and a K destination takes a K source. An immediate stands in scalar slots and a broadcast in vector slots. -/
def Move.legal (vec limm scalar : Bool) (m : Move) : Bool :=
  match dstKind vec m.dst, srcKind vec limm m.src with
  | some .v, some .v => !scalar
  | some .s, some .s => scalar
  | some .s, some .k => scalar
  | some .k, some .k => scalar
  | _, _ => false

/-- What the rules on a whole bundle count (R120). -/
structure Tally where
  srfReads : Nat
  srfWrites : Nat
  vrfReads : Nat
  written : List Nat
  deriving DecidableEq, Repr

/-- A number for the place a destination writes: a trigger writes port A of its unit. -/
def Dst.place : Dst → Nat
  | .srf r => r.toNat
  | .prf r => 64 + r.toNat
  | .mrf r => 128 + r.toNat
  | .crf r => 160 + r.toNat
  | .vrf r => 256 + r.toNat
  | .port fu sel => 1024 + portKey fu sel.toNat
  | .trig fu _ => 1024 + portKey fu 0

/-- The tally with a move counted. -/
def Tally.count (t : Tally) (m : Move) : Tally :=
  { srfReads := t.srfReads + (match m.src with | .srf _ => 1 | .bcast _ => 1 | _ => 0)
    srfWrites := t.srfWrites + (match m.dst with | .srf _ => 1 | _ => 0)
    vrfReads := t.vrfReads + (match m.src with | .vrf _ => 1 | _ => 0)
    written := Dst.place m.dst :: t.written }

/-- Whether a move keeps the limits, given a tally of the moves before it. A third SRF read breaks the limit even where the moves
that passed it before were illegal too. -/
def Tally.keeps (t : Tally) (m : Move) : Bool :=
  let u := t.count m
  let more : Nat → Nat → Nat → Bool := fun lim a b => decide (b ≤ lim) || a == b
  more 2 t.srfReads u.srfReads && more 2 t.srfWrites u.srfWrites && more 3 t.vrfReads u.vrfReads
    && !t.written.contains (Dst.place m.dst)

/-- The tally after a move, or none where the move passes a limit. -/
def Tally.add (t : Tally) (m : Move) : Option Tally := if t.keeps m then some (t.count m) else none

/-- A bundle with nothing counted. -/
def Tally.zero : Tally := ⟨0, 0, 0, []⟩

/-- The tally after a move of a slot, or none where the move is illegal. -/
def Tally.allow (vec limm : Bool) (t : Tally) (slot : Nat) (m : Move) : Option Tally :=
  if Move.legal vec limm (decide (slot < 5)) m then t.add m else none

/-- Whether the moves of slots, in slot order, are all legal. -/
def slotsLegal (vec limm : Bool) (t : Tally) (slot : Nat) : List (Option Move) → Bool
  | [] => true
  | none :: r => slotsLegal vec limm t (slot + 1) r
  | some m :: r =>
    match t.allow vec limm slot m with
    | none => false
    | some u => slotsLegal vec limm u (slot + 1) r

/-- The slots of a bundle in order. -/
def bundleSlots (b : Bundle) : List (Option Move) := [b.s0, b.s1, b.s2, b.s3, b.s4, b.v0, b.v1, b.v2]

/-- Whether a move triggers BRU. DEDUCED (log 17). -/
def triggersBru : Option Move → Bool
  | some m => (match m.dst with | .trig .bru _ => true | _ => false)
  | none => false

/-- Whether a bundle is legal on a core of a VEC chiplet (vec) or of another. The guard of an empty slot is no move's.
DEDUCED (log 17). -/
def bundleLegal (vec : Bool) (b : Bundle) : Bool :=
  let slots := bundleSlots b
  !(b.loopEnd && slots.any triggersBru) && (b.limm.isNone || (b.s3.isNone && b.s4.isNone)) &&
    slots.all (fun m => match m with | some x => !(x.guard.inv && x.guard.pred == 0) | none => true) &&
    slotsLegal vec b.limm.isSome Tally.zero 0 slots

/-! ## Tile commands (R124) -/

/-- Whether a TYPE code may be accumulated (R303). -/
def accType (t : BitVec 4) : Bool := [2, 3, 6, 7, 11, 12, 13, 14].contains t.toNat

/-- Whether a number is a multiple of another. -/
def isMult (n : Nat) (x : Nat) : Bool := x % n == 0

/-- Whether a header is legal: TAG is zero while T is 0 (R122). -/
def hdrLegal (h : TcHdr) : Bool := h.t || h.tag == 0

/-- The requirements of ACCW (R303). DEDUCED (log 38). -/
def accwLegal (b : AccwBody) : Bool :=
  let e := (etypeOf b.type.toNat).width / 8
  accType b.type && b.op != 3 && isMult e b.soff.toNat && isMult e b.doff.toNat && isMult e b.len.toNat &&
    isMult e b.spitch.toNat && isMult e b.dpitch.toNat

/-- The requirements of ATOM (R304). -/
def atomLegal (b : AtomBody) : Bool :=
  decide (b.aop.toNat < 6) && !(b.aop == 3 && b.sz) && isMult (atomSize b) b.doff.toNat

/-- The requirements of COLL (R308); with ACC those of ACCW for its type. DEDUCED (log 38). -/
def collLegal (b : CollBody) : Bool :=
  let e := (etypeOf b.type.toNat).width / 8
  decide (b.port.toNat ≤ 16) &&
    (!b.acc || (accType b.type && b.op != 3 && isMult e b.soff.toNat && isMult e b.doff.toNat && isMult e b.len.toNat))

/-- The requirements of MLOADW and MLOADA (R315). -/
def mloadLegal (b : MloadBody) : Bool :=
  isMult 64 b.doff.toNat && isMult 64 b.dpitch.toNat &&
    match b.src with
    | .buf _ _ => true
    | .shared sbase rpitch tpitch _ rpt =>
      isMult 64 b.rlen.toNat && isMult 64 sbase.toNat && isMult 64 rpitch.toNat && isMult 64 tpitch.toNat && rpt != 0

/-- The element size that an operand's offset and pitch must be multiples of: 1 for BFP (R316). -/
def MFmt.align : MFmt → Nat
  | .fp f => f.width / 8
  | .bfp _ => 1

/-- Whether a format is BFP. -/
def MFmt.isBfp : MFmt → Bool
  | .bfp _ => true
  | _ => false

/-- The requirements of MMUL (R313, R316). DEDUCED (log 41). -/
def mmulLegal (b : MmulBody) : Bool :=
  match mfmtOf b.af.toNat, mfmtOf b.wf.toNat with
  | some a, some w =>
    let ce := (cFmt a w).width / 8
    mfmtPair a w && (!(a.isBfp || w.isBfp) || isMult 32 b.k.toNat) &&
      isMult a.align b.aoff.toNat && isMult a.align b.apitch.toNat && isMult w.align b.woff.toNat &&
      isMult w.align b.wpitch.toNat && isMult ce b.coff.toNat && isMult ce b.cpitch.toNat
  | _, _ => false

/-- The requirements of MEPI (R320): LO and HI are no NaN, and with CEN set they stand in order. -/
def mepiLegal (b : MepiBody) : Bool :=
  let lo := FFmt.fp32.decode b.lo.toNat
  let hi := FFmt.fp32.decode b.hi.toNat
  !lo.isNaN && !hi.isNaN && !(b.cen && hi.lt lo)

/-- The requirements of every sort command (R328) beside those on PW. -/
def sortLegal (b : SortBody) : Bool := decide (b.kt.toNat < 6)

/-- PW 0 or 3, for TOPK, SELECT and UNIQ (R329). -/
def pwIndex (b : SortBody) : Bool := b.pw == 0 || b.pw == 3

/-- Whether the fields of an instruction that a word encodes meet what their descriptions require. An operation or an event has no
word of its own. DEDUCED (log 38). -/
def fieldsLegal (i : Instr) : Bool :=
  match i with
  | .move b => bundleLegal true b
  | .copy h _ => hdrLegal h
  | .copyx h b => hdrLegal h && isMult 4 b.ioff.toNat
  | .fill h _ => hdrLegal h
  | .accw h b => hdrLegal h && accwLegal b
  | .atom h b => hdrLegal h && atomLegal b
  | .chain h b => hdrLegal h && isMult 32 b.loff.toNat && isMult 8 b.woff.toNat && isMult 8 b.poff.toNat
  | .sigop h b => hdrLegal h && isMult 8 b.soff.toNat
  | .xfen h _ => hdrLegal h
  | .coll h b => hdrLegal h && collLegal b
  | .mlease h b => hdrLegal h && decide (1 ≤ b.n.toNat) && decide (b.n.toNat ≤ 64)
  | .mloadw h b => hdrLegal h && mloadLegal b
  | .mloada h b => hdrLegal h && mloadLegal b
  | .mmul h b => hdrLegal h && mmulLegal b
  | .mzero h b => hdrLegal h && isMult 4 b.coff.toNat && isMult 4 b.cpitch.toNat && isMult 4 b.rlen.toNat
  | .mstore h b => hdrLegal h && (dfFmt b.df.toNat).isSome && isMult 8 b.soffs.toNat
  | .mepi h b => hdrLegal h && mepiLegal b
  | .mrelease h => hdrLegal h
  | .wload h b => hdrLegal h && isMult 4 b.soff.toNat && decide (b.dpc.toNat + b.ni.toNat ≤ 4096)
  | .wrun h b => hdrLegal h && isMult 64 b.toff0.toNat && isMult 64 b.toff1.toNat && b.esz != 3
  | .wstat h _ => hdrLegal h
  | .isect h b => hdrLegal h && b.el != 3
  | .sort h b => hdrLegal h && sortLegal b
  | .topk h b k aen afti =>
    hdrLegal h && sortLegal b && pwIndex b && decide (1 ≤ k.toNat) && decide (k.toNat ≤ 256) &&
      (!aen || b.n == 0 || decide (afti.toNat < b.n.toNat))
  | .merge h b _ => hdrLegal h && sortLegal b
  | .select h b rank => hdrLegal h && sortLegal b && pwIndex b && (b.n == 0 || decide (rank.toNat < b.n.toNat))
  | .search h b _ => hdrLegal h && sortLegal b
  | .uniq h b _ => hdrLegal h && sortLegal b && pwIndex b
  | .uopen h b => hdrLegal h && uopSize b.uop.toNat != 0
  | .uclose h => hdrLegal h
  | .uquota h _ => hdrLegal h
  | .uspill h _ => hdrLegal h
  | .sigadd h b => hdrLegal h && isMult 8 b.soff.toNat
  | .sigset h b => hdrLegal h && isMult 8 b.soff.toNat
  | .sigwait h b => hdrLegal h && isMult 8 b.soff.toNat && decide (b.cmp.toNat < 6)
  | .barrier p =>
    let ok : Nat → BarCond → Bool := fun k c => !p.use.getLsbD k || isMult 8 c.off.toNat
    decide (p.acode.toNat ≤ 2 ^ 31 - 5) && ok 0 p.c0 && ok 1 p.c1 && ok 2 p.c2 && ok 3 p.c3
  | .signal p => isMult 8 p.off.toNat
  | _ => true

end Sys2Proof.Machine
end

