-- ==== Sys2Proof/WellFormed.lean ====
section
/-! DEFINITION. Well-formedness of instructions: what an encoding can carry. -/

namespace Sys2Proof

/-- A well-formed instruction: its fields meet what the spec requires of them (R107-R120, R124, R289). A bundle is judged as on a
core of a VEC chiplet, the one class whose cores have LAC. -/
def Instr.wf (i : Instr) : Bool := Machine.fieldsLegal i

end Sys2Proof
end

