-- ==== Sys2Proof/Decode.lean ====
section
/-! DEFINITION. The decoder and the encoder: bundles (R106-R120), tile command words (R122-R124), walker instructions (R125, R126)
and launch packets (R289-R292), both written from the same field tables. A word of a table is a list of fields from its most
significant bit down. -/

namespace Sys2Proof

open Machine

/-! ## Fields -/

/-- The sum of widths. -/
def widthSum : List Nat → Nat
  | [] => 0
  | w :: ws => w + widthSum ws

/-- The values of fields of given widths, the first the most significant. -/
def unpack : List Nat → Nat → List Nat
  | [], _ => []
  | w :: ws, n => bitsAt n (widthSum ws) w :: unpack ws n

/-- Fields of given widths packed into a number, the first the most significant. -/
def pack : List (Nat × Nat) → Nat
  | [] => 0
  | (w, v) :: r => (v % 2 ^ w) <<< widthSum (r.map (fun p => p.1)) + pack r

/-! ## Moves (R110-R116) -/

/-- The destination of DFU and DSEL (R113, R119, R121); none for a selector or a trigger that is not listed. -/
def decodeDst (dfu dsel : Nat) : Option Dst :=
  match FU.ofId dfu with
  | none => none
  | some .srf => if dsel < 64 then some (.srf (BitVec.ofNat 6 dsel)) else none
  | some .prf =>
    if 1 ≤ dsel ∧ dsel < 16 then some (.prf (BitVec.ofNat 4 dsel))
    else if 16 ≤ dsel ∧ dsel < 24 then some (.mrf (BitVec.ofNat 3 (dsel - 16))) else none
  | some .crf => if dsel < 16 then some (.crf (BitVec.ofNat 4 dsel)) else none
  | some .vrf => some (.vrf (BitVec.ofNat 7 dsel))
  | some fu => if dsel < 8 then some (.port fu (BitVec.ofNat 3 dsel)) else some (.trig fu (BitVec.ofNat 7 (dsel - 8)))

/-- DFU and DSEL of a destination. -/
def encodeDst : Dst → Nat × Nat
  | .srf r => (FU.id .srf, r.toNat)
  | .prf r => (FU.id .prf, r.toNat)
  | .mrf r => (FU.id .prf, 16 + r.toNat)
  | .crf r => (FU.id .crf, r.toNat)
  | .vrf r => (FU.id .vrf, r.toNat)
  | .port fu sel => (fu.id, sel.toNat)
  | .trig fu opc => (fu.id, opc.toNat + 8)

/-- The source of KIND and SDATA in a scalar or a vector slot (R114); none for a code that is not listed. -/
def decodeSrc (scalar : Bool) (kind sdata : Nat) : Option Src :=
  let idx := bitsAt sdata 0 8
  match kind with
  | 0 =>
    (match bitsAt sdata 8 3 with
     | 0 => if idx < 64 then some (.srf (BitVec.ofNat 6 idx)) else none
     | 1 => if idx < 16 then some (.prf (BitVec.ofNat 4 idx)) else none
     | 2 => if idx < 16 then some (.crf (BitVec.ofNat 4 idx)) else none
     | 3 => if idx < 128 then some (.vrf (BitVec.ofNat 7 idx)) else none
     | 4 => if idx < 8 then some (.mrf (BitVec.ofNat 3 idx)) else none
     | 5 => if idx < 32 then some (.sill (BitVec.ofNat 5 idx)) else none
     | 6 => if idx < 8 then some (.vsill (BitVec.ofNat 3 idx)) else none
     | _ => none)
  | 1 =>
    if bitsAt sdata 0 2 ≠ 0 then none
    else
      (match FU.ofId (bitsAt sdata 6 5) with
       | some fu => some (.win fu (BitVec.ofNat 2 (bitsAt sdata 4 2)) (BitVec.ofNat 2 (bitsAt sdata 2 2)))
       | none => none)
  | 2 =>
    if scalar then some (.imm (BitVec.ofNat 11 sdata))
    else if bitsAt sdata 6 5 = 0 then some (.bcast (BitVec.ofNat 6 (bitsAt sdata 0 6))) else none
  | _ =>
    if !scalar then none
    else
      match sdata with
      | 0x000 => some .limm
      | 0x001 => some .coreIdx
      | 0x002 => some .crewSize
      | 0x003 => some .chiplet
      | 0x004 => some .argBase
      | 0x005 => some .cycle
      | 0x006 => some .tick
      | c => if 0x010 ≤ c ∧ c < 0x020 then some (.const (BitVec.ofNat 4 (c - 0x010))) else none

/-- KIND and SDATA of a source. -/
def encodeSrc : Src → Nat × Nat
  | .srf r => (0, r.toNat)
  | .prf r => (0, 0x100 + r.toNat)
  | .crf r => (0, 0x200 + r.toNat)
  | .vrf r => (0, 0x300 + r.toNat)
  | .mrf r => (0, 0x400 + r.toNat)
  | .sill r => (0, 0x500 + r.toNat)
  | .vsill r => (0, 0x600 + r.toNat)
  | .win fu port depth => (1, pack [(5, fu.id), (2, port.toNat), (2, depth.toNat), (2, 0)])
  | .imm v => (2, v.toNat)
  | .bcast r => (2, r.toNat)
  | .limm => (3, 0)
  | .coreIdx => (3, 1)
  | .crewSize => (3, 2)
  | .chiplet => (3, 3)
  | .argBase => (3, 4)
  | .cycle => (3, 5)
  | .tick => (3, 6)
  | .const i => (3, 0x010 + i.toNat)

/-- The 30 bits of a slot: an empty slot, a move, or nothing legal (R110, R111). -/
def decodeMove (scalar : Bool) (bits : Nat) : Option (Option Move) :=
  match unpack [1, 4, 5, 7, 2, 11] bits with
  | [ginv, gpred, dfu, dsel, kind, sdata] =>
    if ginv = 1 ∧ gpred = 0 then (if bitsAt bits 0 25 = 0 then some none else none)
    else
      match decodeDst dfu dsel, decodeSrc scalar kind sdata with
      | some d, some s => some (some ⟨⟨ginv == 1, BitVec.ofNat 4 gpred⟩, d, s⟩)
      | _, _ => none
  | _ => none

/-- The 30 bits of an empty slot (R111). -/
def emptySlot : Nat := 2 ^ 29

/-- The 30 bits of a slot. -/
def encodeMove : Option Move → Nat
  | none => emptySlot
  | some m =>
    let d := encodeDst m.dst
    let s := encodeSrc m.src
    pack [(1, b2n m.guard.inv), (4, m.guard.pred.toNat), (5, d.1), (7, d.2), (2, s.1), (11, s.2)]

/-! ## Bundles (R106-R120) -/

/-- Why a bundle is illegal: ILLEGAL_BUNDLE with bits [255:240], or ILLEGAL_TRANSPORT with its slot, its 30 bits and whether
a further move of the bundle is illegal (R60, R107, R120). -/
inductive BundleErr where
  | bundle (detail : Nat)
  | transport (slot detail : Nat) (more : Bool)
  deriving DecidableEq, Repr

/-- The tally with what a slot's 30 bits spell counted, where they are no legal move (R120): a read by its KIND and file, whatever its index,
and the destination that decodes. A slot of guard never is no move (R111). DEDUCED (log 17). -/
def countBits (t : Tally) (scalar : Bool) (bits : Nat) : Tally :=
  match unpack [1, 4, 5, 7, 2, 11] bits with
  | [ginv, gpred, dfu, dsel, kind, sdata] =>
    if ginv = 1 ∧ gpred = 0 then t
    else
      let d := decodeDst dfu dsel
      let file : Nat → Bool := fun f => kind == 0 && sdata / 256 == f
      { srfReads := t.srfReads + b2n (file 0 || (kind == 2 && !scalar))
        srfWrites := t.srfWrites + (match d with | some (.srf _) => 1 | _ => 0)
        vrfReads := t.vrfReads + b2n (file 3)
        written := (d.map Dst.place).toList ++ t.written }
  | _ => t

/-- Whether a slot from one on is illegal, after an illegal move; the moves that decode are all counted. -/
def laterIllegal (vec limm : Bool) : Tally → Nat → List Nat → Bool
  | _, _, [] => false
  | t, slot, bits :: r =>
    if limm && (slot == 3 || slot == 4) then laterIllegal vec limm t (slot + 1) r
    else
      match decodeMove (decide (slot < 5)) bits with
      | none => true
      | some none => laterIllegal vec limm t (slot + 1) r
      | some (some m) =>
        match t.allow vec limm slot m with
        | none => true
        | some u => laterIllegal vec limm u (slot + 1) r

/-- The slots from one on decoded in order, each against the rules on moves and on the bundle as a whole. -/
def decodeSlots (vec limm : Bool) : Tally → Nat → List Nat → Except BundleErr (List (Option Move))
  | _, _, [] => .ok []
  | t, slot, bits :: r =>
    if limm && (slot == 3 || slot == 4) then
      match decodeSlots vec limm t (slot + 1) r with
      | .ok l => .ok (none :: l)
      | .error e => .error e
    else
      match decodeMove (decide (slot < 5)) bits with
      | none => .error (.transport slot bits (laterIllegal vec limm (countBits t (decide (slot < 5)) bits) (slot + 1) r))
      | some none =>
        (match decodeSlots vec limm t (slot + 1) r with
         | .ok l => .ok (none :: l)
         | .error e => .error e)
      | some (some m) =>
        match t.allow vec limm slot m with
        | none => .error (.transport slot bits (laterIllegal vec limm (t.count m) (slot + 1) r))
        | some u =>
          match decodeSlots vec limm u (slot + 1) r with
          | .ok l => .ok (some m :: l)
          | .error e => .error e

/-- Whether the 30 bits of a slot trigger BRU: not an empty slot, DFU BRU, and a selector from 0x08 on (R107). -/
def bruTrigger (bits : Nat) : Bool :=
  match unpack [1, 4, 5, 7, 13] bits with
  | [ginv, gpred, dfu, dsel, _] => !(ginv == 1 && gpred == 0) && dfu == FU.id .bru && decide (8 ≤ dsel)
  | _ => false

/-- The eight slots of a bundle word, S0 first. -/
def slotBits (n : Nat) : List Nat := unpack [30, 30, 30, 30, 30, 30, 30, 30] n

/-- A bundle read from its 256 bits on a core that has LAC (vec) or has not. -/
def decodeBundle (vec : Bool) (w : Bits256) : Except BundleErr Bundle :=
  let n := w.toNat
  match unpack [4, 4, 4, 4, 240] n with
  | [fmt, z1, lih, z2, _] =>
    let limm := fmt == 1 || fmt == 3
    let bits := slotBits n
    let moves := if limm then bits.take 3 ++ bits.drop 5 else bits
    if 4 ≤ fmt ∨ z1 ≠ 0 ∨ z2 ≠ 0 ∨ (!limm ∧ lih ≠ 0) ∨ ((fmt = 2 ∨ fmt = 3) ∧ moves.any bruTrigger) then
      .error (.bundle (bitsAt n 240 16))
    else
      match decodeSlots vec limm Tally.zero 0 bits with
      | .error e => .error e
      | .ok [s0, s1, s2, s3, s4, v0, v1, v2] =>
        .ok { loopEnd := fmt == 2 || fmt == 3,
              limm := if limm then some (BitVec.ofNat 64 (pack [(4, lih), (60, bitsAt n 90 60)])) else none,
              s0 := s0, s1 := s1, s2 := s2, s3 := s3, s4 := s4, v0 := v0, v1 := v1, v2 := v2 }
      | .ok _ => .error (.bundle (bitsAt n 240 16))
  | _ => .error (.bundle (bitsAt n 240 16))

/-- The 256 bits of a bundle. -/
def encodeBundle (b : Bundle) : Bits256 :=
  let fmt := b2n b.limm.isSome + 2 * b2n b.loopEnd
  let limm := (b.limm.getD 0).toNat
  let s3 := if b.limm.isSome then bitsAt limm 30 30 else encodeMove b.s3
  let s4 := if b.limm.isSome then bitsAt limm 0 30 else encodeMove b.s4
  BitVec.ofNat 256 (pack
    [(4, fmt), (4, 0), (4, bitsAt limm 60 4), (4, 0), (30, encodeMove b.s0), (30, encodeMove b.s1), (30, encodeMove b.s2),
     (30, s3), (30, s4), (30, encodeMove b.v0), (30, encodeMove b.v1), (30, encodeMove b.v2)])

/-! ## Tile command words (R122, R123) -/

/-- The widths of the header below OPC: T, B, I, K, TAG, and six bits that must be zero. -/
def hdrWidths : List Nat := [1, 1, 1, 1, 6, 6]

/-- The widths of a sort command's common layout (R328), with its own 41 bits last. -/
def sortWidths : List Nat := [4, 1, 2, 24, 40, 40, 40, 40]

/-- The body of a sort command from its fields. -/
def sortBody (kt desc pw n koff poff dkoff dpoff : Nat) : SortBody :=
  { kt := BitVec.ofNat 4 kt, desc := desc == 1, pw := BitVec.ofNat 2 pw, n := BitVec.ofNat 24 n, koff := BitVec.ofNat 40 koff,
    poff := BitVec.ofNat 40 poff, dkoff := BitVec.ofNat 40 dkoff, dpoff := BitVec.ofNat 40 dpoff }

/-- The fields of a sort command's common layout. -/
def sortFields (b : SortBody) : List (Nat × Nat) :=
  [(4, b.kt.toNat), (1, b2n b.desc), (2, b.pw.toNat), (24, b.n.toNat), (40, b.koff.toNat), (40, b.poff.toNat),
   (40, b.dkoff.toNat), (40, b.dpoff.toNat)]

/-- The body of MLOADW and MLOADA (R315): SRC selects one of two layouts. -/
def parseMload (n : Nat) : Option MloadBody :=
  match unpack [1, 24, 16, 16, 24, 40, 32, 79] n with
  | [0, d, r, l, p, so, sp, 0] =>
    some { doff := BitVec.ofNat 24 d, rows := BitVec.ofNat 16 r, rlen := BitVec.ofNat 16 l, dpitch := BitVec.ofNat 24 p,
           src := .buf (BitVec.ofNat 40 so) (BitVec.ofNat 32 sp) }
  | _ =>
    match unpack [1, 24, 16, 16, 24, 24, 24, 24, 4, 16, 59] n with
    | [1, d, r, l, p, sb, rp, tp, rot, rpt, 0] =>
      some { doff := BitVec.ofNat 24 d, rows := BitVec.ofNat 16 r, rlen := BitVec.ofNat 16 l, dpitch := BitVec.ofNat 24 p,
             src := .shared (BitVec.ofNat 24 sb) (BitVec.ofNat 24 rp) (BitVec.ofNat 24 tp) (BitVec.ofNat 4 rot)
               (BitVec.ofNat 16 rpt) }
    | _ => none

/-- The fields of MLOADW and MLOADA. -/
def mloadFields (b : MloadBody) : List (Nat × Nat) :=
  match b.src with
  | .buf so sp =>
    [(1, 0), (24, b.doff.toNat), (16, b.rows.toNat), (16, b.rlen.toNat), (24, b.dpitch.toNat), (40, so.toNat), (32, sp.toNat),
     (79, 0)]
  | .shared sb rp tp rot rpt =>
    [(1, 1), (24, b.doff.toNat), (16, b.rows.toNat), (16, b.rlen.toNat), (24, b.dpitch.toNat), (24, sb.toNat), (24, rp.toNat),
     (24, tp.toNat), (4, rot.toNat), (16, rpt.toNat), (59, 0)]

/-- A tile command read from its OPC, its header and the 232 bits of its body; none for an OPC not in R123 and where a bit that
must be zero is 1. -/
def parseBody (opc : Nat) (h : TcHdr) (n : Nat) : Option Instr :=
  match opc with
  | 0x00 =>
    (match unpack [48, 48, 24, 24, 32, 32, 24] n with
     | [x0, x1, x2, x3, x4, x5, 0] =>
       some (.copy h
         { soff := BitVec.ofNat 48 x0, doff := BitVec.ofNat 48 x1, len := BitVec.ofNat 24 x2, nrows := BitVec.ofNat 24 x3,
           spitch := BitVec.ofNat 32 x4, dpitch := BitVec.ofNat 32 x5 })
     | _ => none)
  | 0x01 =>
    (match unpack [48, 48, 24, 24, 32, 32, 11, 1, 1, 11] n with
     | [x0, x1, x2, x3, x4, x5, x6, x7, x8, 0] =>
       some (.copyx h
         { soff := BitVec.ofNat 48 x0, doff := BitVec.ofNat 48 x1, len := BitVec.ofNat 24 x2, nidx := BitVec.ofNat 24 x3,
           pitch := BitVec.ofNat 32 x4, ioff := BitVec.ofNat 32 x5, xent := BitVec.ofNat 11 x6, sct := x7 == 1,
           skip := x8 == 1 })
     | _ => none)
  | 0x02 =>
    (match unpack [48, 48, 64, 2, 70] n with
     | [x0, x1, x2, x3, 0] =>
       some (.fill h
         { doff := BitVec.ofNat 48 x0, len := BitVec.ofNat 48 x1, pat := BitVec.ofNat 64 x2, pw := BitVec.ofNat 2 x3 })
     | _ => none)
  | 0x03 =>
    (match unpack [48, 48, 24, 24, 32, 32, 4, 2, 3, 1, 14] n with
     | [x0, x1, x2, x3, x4, x5, x6, x7, x8, x9, 0] =>
       some (.accw h
         { soff := BitVec.ofNat 48 x0, doff := BitVec.ofNat 48 x1, len := BitVec.ofNat 24 x2, nrows := BitVec.ofNat 24 x3,
           spitch := BitVec.ofNat 32 x4, dpitch := BitVec.ofNat 32 x5, type := BitVec.ofNat 4 x6, op := BitVec.ofNat 2 x7,
           rnd := BitVec.ofNat 3 x8, sat := x9 == 1 })
     | _ => none)
  | 0x04 =>
    (match unpack [48, 3, 1, 5, 1, 64, 64, 46] n with
     | [x0, x1, x2, x3, x4, x5, x6, 0] =>
       some (.atom h
         { doff := BitVec.ofNat 48 x0, aop := BitVec.ofNat 3 x1, sz := x2 == 1, slot := BitVec.ofNat 5 x3, ret := x4 == 1,
           opnd := BitVec.ofNat 64 x5, cmpv := BitVec.ofNat 64 x6 })
     | _ => none)
  | 0x05 =>
    (match unpack [48, 16, 24, 48, 48, 11, 1, 1, 6, 29] n with
     | [x0, x1, x2, x3, x4, x5, x6, x7, x8, 0] =>
       some (.chain h
         { loff := BitVec.ofNat 48 x0, rlen := BitVec.ofNat 16 x1, nent := BitVec.ofNat 24 x2, woff := BitVec.ofNat 48 x3,
           poff := BitVec.ofNat 48 x4, lent := BitVec.ofNat 11 x5, wen := x6 == 1, pen := x7 == 1, tq := BitVec.ofNat 6 x8 })
     | _ => none)
  | 0x06 =>
    (match unpack [48, 1, 64, 119] n with
     | [x0, x1, x2, 0] =>
       some (.sigop h
         { soff := BitVec.ofNat 48 x0, op := x1 == 1, val := BitVec.ofNat 64 x2 })
     | _ => none)
  | 0x07 =>
    (match unpack [16, 216] n with
     | [x0, 0] =>
       some (.xfen h
         { qmask := BitVec.ofNat 16 x0 })
     | _ => none)
  | 0x08 =>
    (match unpack [48, 48, 24, 9, 5, 1, 4, 2, 3, 48, 1, 39] n with
     | [x0, x1, x2, x3, x4, x5, x6, x7, x8, x9, x10, 0] =>
       some (.coll h
         { soff := BitVec.ofNat 48 x0, doff := BitVec.ofNat 48 x1, len := BitVec.ofNat 24 x2, peer := BitVec.ofNat 9 x3,
           port := BitVec.ofNat 5 x4, acc := x5 == 1, type := BitVec.ofNat 4 x6, op := BitVec.ofNat 2 x7,
           rnd := BitVec.ofNat 3 x8, rsoff := BitVec.ofNat 48 x9, rsen := x10 == 1 })
     | _ => none)
  | 0x20 =>
    (match unpack [7, 225] n with
     | [x0, 0] =>
       some (.mlease h
         { n := BitVec.ofNat 7 x0 })
     | _ => none)
  | 0x21 =>
    (match parseMload n with
     | some b => some (.mloadw h b)
     | none => none)
  | 0x22 =>
    (match parseMload n with
     | some b => some (.mloada h b)
     | none => none)
  | 0x23 =>
    (match unpack [4, 4, 21, 20, 22, 21, 20, 16, 5, 6, 20, 73] n with
     | [x0, x1, x2, x3, x4, x5, x6, x7, x8, x9, x10, 0] =>
       some (.mmul h
         { af := BitVec.ofNat 4 x0, wf := BitVec.ofNat 4 x1, aoff := BitVec.ofNat 21 x2, apitch := BitVec.ofNat 20 x3,
           woff := BitVec.ofNat 22 x4, wpitch := BitVec.ofNat 21 x5, coff := BitVec.ofNat 20 x6, cpitch := BitVec.ofNat 16 x7,
           mlast := BitVec.ofNat 5 x8, nlast := BitVec.ofNat 6 x9, k := BitVec.ofNat 20 x10 })
     | _ => none)
  | 0x24 =>
    (match unpack [20, 16, 16, 16, 164] n with
     | [x0, x1, x2, x3, 0] =>
       some (.mzero h
         { coff := BitVec.ofNat 20 x0, cpitch := BitVec.ofNat 16 x1, rows := BitVec.ofNat 16 x2, rlen := BitVec.ofNat 16 x3 })
     | _ => none)
  | 0x25 =>
    (match unpack [20, 16, 16, 11, 4, 3, 1, 1, 40, 32, 1, 40, 4, 1, 42] n with
     | [x0, x1, x2, x3, x4, x5, x6, x7, x8, x9, x10, x11, x12, x13, 0] =>
       some (.mstore h
         { coff := BitVec.ofNat 20 x0, cpitch := BitVec.ofNat 16 x1, rows := BitVec.ofNat 16 x2,
           nclast := BitVec.ofNat 11 x3, df := BitVec.ofNat 4 x4, rnd := BitVec.ofNat 3 x5, sat := x6 == 1, cw := x7 == 1,
           doff := BitVec.ofNat 40 x8, dpitch := BitVec.ofNat 32 x9, sen := x10 == 1, soffs := BitVec.ofNat 40 x11,
           ph := BitVec.ofNat 4 x12, upd := x13 == 1 })
     | _ => none)
  | 0x26 =>
    (match unpack [20, 16, 16, 11, 20, 1, 1, 32, 32, 83] n with
     | [x0, x1, x2, x3, x4, x5, x6, x7, x8, 0] =>
       some (.mepi h
         { coff := BitVec.ofNat 20 x0, cpitch := BitVec.ofNat 16 x1, rows := BitVec.ofNat 16 x2,
           nclast := BitVec.ofNat 11 x3, boff := BitVec.ofNat 20 x4, ben := x5 == 1, cen := x6 == 1, lo := BitVec.ofNat 32 x7,
           hi := BitVec.ofNat 32 x8 })
     | _ => none)
  | 0x27 => if bitsAt n 0 232 = 0 then some (.mrelease h) else none
  | 0x40 =>
    (match unpack [40, 13, 12, 167] n with
     | [x0, x1, x2, 0] =>
       some (.wload h
         { soff := BitVec.ofNat 40 x0, ni := BitVec.ofNat 13 x1, dpc := BitVec.ofNat 12 x2 })
     | _ => none)
  | 0x41 =>
    (match unpack [12, 40, 21, 21, 6, 12, 2, 21, 32, 65] n with
     | [x0, x1, x2, x3, x4, x5, x6, x7, x8, 0] =>
       some (.wrun h
         { pc := BitVec.ofNat 12 x0, ioff := BitVec.ofNat 40 x1, toff0 := BitVec.ofNat 21 x2, toff1 := BitVec.ofNat 21 x3,
           trlast := BitVec.ofNat 6 x4, tclast := BitVec.ofNat 12 x5, esz := BitVec.ofNat 2 x6, tpitch := BitVec.ofNat 21 x7,
           maxi := BitVec.ofNat 32 x8 })
     | _ => none)
  | 0x42 =>
    (match unpack [40, 192] n with
     | [x0, 0] =>
       some (.wstat h
         { doff := BitVec.ofNat 40 x0 })
     | _ => none)
  | 0x43 =>
    (match unpack [2, 1, 16, 40, 40, 40, 40, 53] n with
     | [x0, x1, x2, x3, x4, x5, x6, 0] =>
       some (.isect h
         { el := BitVec.ofNat 2 x0, clr := x1 == 1, nw := BitVec.ofNat 16 x2, xboff := BitVec.ofNat 40 x3,
           xvoff := BitVec.ofNat 40 x4, yboff := BitVec.ofNat 40 x5, yvoff := BitVec.ofNat 40 x6 })
     | _ => none)
  | 0x60 =>
    (match unpack (sortWidths ++ [41]) n with
     | [kt, d, pw, m, ko, po, dk, dp, 0] => some (.sort h (sortBody kt d pw m ko po dk dp))
     | _ => none)
  | 0x61 =>
    (match unpack (sortWidths ++ [9, 1, 24, 7]) n with
     | [kt, d, pw, m, ko, po, dk, dp, k, a, f, 0] => some (.topk h (sortBody kt d pw m ko po dk dp) (BitVec.ofNat 9 k) (a == 1) (BitVec.ofNat 24 f))
     | _ => none)
  | 0x62 =>
    (match unpack (sortWidths ++ [24, 17]) n with
     | [kt, d, pw, m, ko, po, dk, dp, k, 0] => some (.merge h (sortBody kt d pw m ko po dk dp) (BitVec.ofNat 24 k))
     | _ => none)
  | 0x63 =>
    (match unpack (sortWidths ++ [24, 17]) n with
     | [kt, d, pw, m, ko, po, dk, dp, k, 0] => some (.select h (sortBody kt d pw m ko po dk dp) (BitVec.ofNat 24 k))
     | _ => none)
  | 0x64 =>
    (match unpack (sortWidths ++ [24, 17]) n with
     | [kt, d, pw, m, ko, po, dk, dp, k, 0] => some (.search h (sortBody kt d pw m ko po dk dp) (BitVec.ofNat 24 k))
     | _ => none)
  | 0x65 =>
    (match unpack (sortWidths ++ [40, 1]) n with
     | [kt, d, pw, m, ko, po, dk, dp, k, 0] => some (.uniq h (sortBody kt d pw m ko po dk dp) (BitVec.ofNat 40 k))
     | _ => none)
  | 0x80 =>
    (match unpack [5, 1, 226] n with
     | [x0, x1, 0] =>
       some (.uopen h
         { uop := BitVec.ofNat 5 x0, nosp := x1 == 1 })
     | _ => none)
  | 0x81 => if bitsAt n 0 232 = 0 then some (.uclose h) else none
  | 0x82 =>
    (match unpack [20, 1, 40, 171] n with
     | [x0, x1, x2, 0] =>
       some (.uquota h
         { rq := BitVec.ofNat 20 x0, ren := x1 == 1, roff := BitVec.ofNat 40 x2 })
     | _ => none)
  | 0x83 =>
    (match unpack [1, 1, 1, 229] n with
     | [x0, x1, x2, 0] =>
       some (.uspill h
         { nosp := x0 == 1, clr := x1 == 1, apply := x2 == 1 })
     | _ => none)
  | 0xA0 =>
    (match unpack [48, 64, 120] n with
     | [x0, x1, 0] =>
       some (.sigadd h
         { soff := BitVec.ofNat 48 x0, val := BitVec.ofNat 64 x1 })
     | _ => none)
  | 0xA1 =>
    (match unpack [48, 64, 120] n with
     | [x0, x1, 0] =>
       some (.sigset h
         { soff := BitVec.ofNat 48 x0, val := BitVec.ofNat 64 x1 })
     | _ => none)
  | 0xA2 =>
    (match unpack [48, 64, 3, 18, 99] n with
     | [x0, x1, x2, x3, 0] =>
       some (.sigwait h
         { soff := BitVec.ofNat 48 x0, val := BitVec.ofNat 64 x1, cmp := BitVec.ofNat 3 x2, tout := BitVec.ofNat 18 x3 })
     | _ => none)
  | _ => none

/-- A tile command word read: its fields must also meet what their descriptions require (R124). -/
def decodeTile (w : Bits256) : Option Instr :=
  let n := w.toNat
  match unpack hdrWidths (n >>> 232) with
  | [t, b, i, k, tag, 0] =>
    let h : TcHdr := { t := t == 1, b := b == 1, i := i == 1, k := k == 1, tag := BitVec.ofNat 6 tag }
    (match parseBody (bitsAt n 248 8) h n with
     | some x => if fieldsLegal x then some x else none
     | none => none)
  | _ => none

/-- A tile command word of its OPC, header and body fields. -/
def tileWord (opc : Nat) (h : TcHdr) (body : List (Nat × Nat)) : Bits256 :=
  BitVec.ofNat 256 (pack ((8, opc) :: (1, b2n h.t) :: (1, b2n h.b) :: (1, b2n h.i) :: (1, b2n h.k) :: (6, h.tag.toNat)
    :: (6, 0) :: body))

/-- The word of a tile command. -/
def encodeTile (x : Instr) : Option Bits256 :=
  match x with
  | .copy h b =>
    some (tileWord 0x00 h
      [(48, b.soff.toNat), (48, b.doff.toNat), (24, b.len.toNat), (24, b.nrows.toNat), (32, b.spitch.toNat),
      (32, b.dpitch.toNat), (24, 0)])
  | .copyx h b =>
    some (tileWord 0x01 h
      [(48, b.soff.toNat), (48, b.doff.toNat), (24, b.len.toNat), (24, b.nidx.toNat), (32, b.pitch.toNat),
      (32, b.ioff.toNat), (11, b.xent.toNat), (1, b2n b.sct), (1, b2n b.skip), (11, 0)])
  | .fill h b =>
    some (tileWord 0x02 h
      [(48, b.doff.toNat), (48, b.len.toNat), (64, b.pat.toNat), (2, b.pw.toNat), (70, 0)])
  | .accw h b =>
    some (tileWord 0x03 h
      [(48, b.soff.toNat), (48, b.doff.toNat), (24, b.len.toNat), (24, b.nrows.toNat), (32, b.spitch.toNat),
      (32, b.dpitch.toNat), (4, b.type.toNat), (2, b.op.toNat), (3, b.rnd.toNat), (1, b2n b.sat), (14, 0)])
  | .atom h b =>
    some (tileWord 0x04 h
      [(48, b.doff.toNat), (3, b.aop.toNat), (1, b2n b.sz), (5, b.slot.toNat), (1, b2n b.ret), (64, b.opnd.toNat),
      (64, b.cmpv.toNat), (46, 0)])
  | .chain h b =>
    some (tileWord 0x05 h
      [(48, b.loff.toNat), (16, b.rlen.toNat), (24, b.nent.toNat), (48, b.woff.toNat), (48, b.poff.toNat),
      (11, b.lent.toNat), (1, b2n b.wen), (1, b2n b.pen), (6, b.tq.toNat), (29, 0)])
  | .sigop h b =>
    some (tileWord 0x06 h
      [(48, b.soff.toNat), (1, b2n b.op), (64, b.val.toNat), (119, 0)])
  | .xfen h b =>
    some (tileWord 0x07 h
      [(16, b.qmask.toNat), (216, 0)])
  | .coll h b =>
    some (tileWord 0x08 h
      [(48, b.soff.toNat), (48, b.doff.toNat), (24, b.len.toNat), (9, b.peer.toNat), (5, b.port.toNat), (1, b2n b.acc),
      (4, b.type.toNat), (2, b.op.toNat), (3, b.rnd.toNat), (48, b.rsoff.toNat), (1, b2n b.rsen), (39, 0)])
  | .mlease h b =>
    some (tileWord 0x20 h
      [(7, b.n.toNat), (225, 0)])
  | .mloadw h b => some (tileWord 0x21 h (mloadFields b))
  | .mloada h b => some (tileWord 0x22 h (mloadFields b))
  | .mmul h b =>
    some (tileWord 0x23 h
      [(4, b.af.toNat), (4, b.wf.toNat), (21, b.aoff.toNat), (20, b.apitch.toNat), (22, b.woff.toNat), (21, b.wpitch.toNat),
      (20, b.coff.toNat), (16, b.cpitch.toNat), (5, b.mlast.toNat), (6, b.nlast.toNat), (20, b.k.toNat), (73, 0)])
  | .mzero h b =>
    some (tileWord 0x24 h
      [(20, b.coff.toNat), (16, b.cpitch.toNat), (16, b.rows.toNat), (16, b.rlen.toNat), (164, 0)])
  | .mstore h b =>
    some (tileWord 0x25 h
      [(20, b.coff.toNat), (16, b.cpitch.toNat), (16, b.rows.toNat), (11, b.nclast.toNat), (4, b.df.toNat), (3, b.rnd.toNat),
      (1, b2n b.sat), (1, b2n b.cw), (40, b.doff.toNat), (32, b.dpitch.toNat), (1, b2n b.sen), (40, b.soffs.toNat),
      (4, b.ph.toNat), (1, b2n b.upd), (42, 0)])
  | .mepi h b =>
    some (tileWord 0x26 h
      [(20, b.coff.toNat), (16, b.cpitch.toNat), (16, b.rows.toNat), (11, b.nclast.toNat), (20, b.boff.toNat),
      (1, b2n b.ben), (1, b2n b.cen), (32, b.lo.toNat), (32, b.hi.toNat), (83, 0)])
  | .mrelease h => some (tileWord 0x27 h [(232, 0)])
  | .wload h b =>
    some (tileWord 0x40 h
      [(40, b.soff.toNat), (13, b.ni.toNat), (12, b.dpc.toNat), (167, 0)])
  | .wrun h b =>
    some (tileWord 0x41 h
      [(12, b.pc.toNat), (40, b.ioff.toNat), (21, b.toff0.toNat), (21, b.toff1.toNat), (6, b.trlast.toNat),
      (12, b.tclast.toNat), (2, b.esz.toNat), (21, b.tpitch.toNat), (32, b.maxi.toNat), (65, 0)])
  | .wstat h b =>
    some (tileWord 0x42 h
      [(40, b.doff.toNat), (192, 0)])
  | .isect h b =>
    some (tileWord 0x43 h
      [(2, b.el.toNat), (1, b2n b.clr), (16, b.nw.toNat), (40, b.xboff.toNat), (40, b.xvoff.toNat), (40, b.yboff.toNat),
      (40, b.yvoff.toNat), (53, 0)])
  | .sort h b => some (tileWord 0x60 h (sortFields b ++ [(41, 0)]))
  | .topk h b k aen afti =>
    some (tileWord 0x61 h (sortFields b ++ [(9, k.toNat), (1, b2n aen), (24, afti.toNat), (7, 0)]))
  | .merge h b x => some (tileWord 0x62 h (sortFields b ++ [(24, x.toNat), (17, 0)]))
  | .select h b x => some (tileWord 0x63 h (sortFields b ++ [(24, x.toNat), (17, 0)]))
  | .search h b x => some (tileWord 0x64 h (sortFields b ++ [(24, x.toNat), (17, 0)]))
  | .uniq h b x => some (tileWord 0x65 h (sortFields b ++ [(40, x.toNat), (1, 0)]))
  | .uopen h b =>
    some (tileWord 0x80 h
      [(5, b.uop.toNat), (1, b2n b.nosp), (226, 0)])
  | .uclose h => some (tileWord 0x81 h [(232, 0)])
  | .uquota h b =>
    some (tileWord 0x82 h
      [(20, b.rq.toNat), (1, b2n b.ren), (40, b.roff.toNat), (171, 0)])
  | .uspill h b =>
    some (tileWord 0x83 h
      [(1, b2n b.nosp), (1, b2n b.clr), (1, b2n b.apply), (229, 0)])
  | .sigadd h b =>
    some (tileWord 0xA0 h
      [(48, b.soff.toNat), (64, b.val.toNat), (120, 0)])
  | .sigset h b =>
    some (tileWord 0xA1 h
      [(48, b.soff.toNat), (64, b.val.toNat), (120, 0)])
  | .sigwait h b =>
    some (tileWord 0xA2 h
      [(48, b.soff.toNat), (64, b.val.toNat), (3, b.cmp.toNat), (18, b.tout.toNat), (99, 0)])
  | _ => none

/-! ## Walker instructions (R125, R126) -/

/-- A walker instruction read; the ESTAT of the WALKER fault where its opcode is not listed (1) or a field it does not use is
non-zero (2). -/
def decodeWalker (w : BitVec 32) : Except Nat Instr :=
  match unpack [6, 4, 4, 4, 14] w.toNat with
  | [op, d, a, b, i] =>
    let wd : WReg := BitVec.ofNat 4 d
    let wa : WReg := BitVec.ofNat 4 a
    let wb : WReg := BitVec.ofNat 4 b
    let imm : BitVec 14 := BitVec.ofNat 14 i
    let use : Bool → Instr → Except Nat Instr := fun ok x => if ok then .ok x else .error 2
    match op with
    | 0x00 => use (b == 0) (.walkerLdw wd wa imm)
    | 0x01 => use (b == 0) (.walkerLdh wd wa imm)
    | 0x02 => use (b == 0) (.walkerLdb wd wa imm)
    | 0x08 => use (i == 0) (.walkerAddw wd wa wb)
    | 0x09 => use (i == 0) (.walkerSubw wd wa wb)
    | 0x0A => use (i == 0) (.walkerAndw wd wa wb)
    | 0x0B => use (b == 0) (.walkerShrw wd wa imm)
    | 0x0C => use (b == 0 && i == 0) (.walkerPopc wd wa)
    | 0x0D => use (i == 0) (.pfxp wd wa wb)
    | 0x10 => use (d == 0 && b == 0) (.bnz wa imm)
    | 0x11 => use (d == 0 && b == 0) (.bz wa imm)
    | 0x12 => use (d == 0 && a == 0 && b == 0) (.walkerJmp imm)
    | 0x18 => use (d == 0 && i == 0) (.walkerEmit wa wb)
    | 0x19 => use (d == 0 && i == 0) (.emrow wa wb)
    | 0x1A => use (d == 0 && a == 0 && b == 0 && i == 0) .nextt
    | 0x20 => use (d == 0 && a == 0 && b == 0 && i == 0) .waita
    | 0x21 => use (i == 0) (.istep wd wa wb)
    | 0x3F => use (d == 0 && a == 0 && b == 0 && i == 0) .done
    | _ => .error 1
  | _ => .error 1

/-- A walker word of its five fields. -/
def walkerWord (op d a b i : Nat) : BitVec 32 := BitVec.ofNat 32 (pack [(6, op), (4, d), (4, a), (4, b), (14, i)])

/-- The word of a walker instruction. -/
def encodeWalker (x : Instr) : Option (BitVec 32) :=
  match x with
  | .walkerLdw d a i => some (walkerWord 0x00 d.toNat a.toNat 0 i.toNat)
  | .walkerLdh d a i => some (walkerWord 0x01 d.toNat a.toNat 0 i.toNat)
  | .walkerLdb d a i => some (walkerWord 0x02 d.toNat a.toNat 0 i.toNat)
  | .walkerAddw d a b => some (walkerWord 0x08 d.toNat a.toNat b.toNat 0)
  | .walkerSubw d a b => some (walkerWord 0x09 d.toNat a.toNat b.toNat 0)
  | .walkerAndw d a b => some (walkerWord 0x0A d.toNat a.toNat b.toNat 0)
  | .walkerShrw d a i => some (walkerWord 0x0B d.toNat a.toNat 0 i.toNat)
  | .walkerPopc d a => some (walkerWord 0x0C d.toNat a.toNat 0 0)
  | .pfxp d a b => some (walkerWord 0x0D d.toNat a.toNat b.toNat 0)
  | .bnz a i => some (walkerWord 0x10 0 a.toNat 0 i.toNat)
  | .bz a i => some (walkerWord 0x11 0 a.toNat 0 i.toNat)
  | .walkerJmp i => some (walkerWord 0x12 0 0 0 i.toNat)
  | .walkerEmit a b => some (walkerWord 0x18 0 a.toNat b.toNat 0)
  | .emrow a b => some (walkerWord 0x19 0 a.toNat b.toNat 0)
  | .nextt => some (walkerWord 0x1A 0 0 0 0)
  | .waita => some (walkerWord 0x20 0 0 0 0)
  | .istep d a b => some (walkerWord 0x21 d.toNat a.toNat b.toNat 0)
  | .done => some (walkerWord 0x3F 0 0 0 0)
  | _ => none

/-! ## Launch packets (R289-R292) -/

/-- The fields of a BARRIER condition. -/
def barCond (xh off : Nat) : BarCond := { xh := BitVec.ofNat 16 xh, off := BitVec.ofNat 48 off }

/-- A launch packet read from its eight words; none for a malformed one (R289). -/
def decodePacket (p : Bits512) : Option Instr :=
  let n := p.toNat
  match unpack [8, 1, 7] (n >>> 48) with
  | [kind, bar, 0] =>
    let bar := bar == 1
    let x : Option Instr :=
      match bitsAt n 56 8, kind with
      | 0x01, _ =>
        (match unpack [256, 16, 16, 16, 16, 16, 16, 16, 16, 13, 3, 48, 16, 8, 40] n with
         | [0, x7, x6, x5, x4, x3, x2, x1, x0, 0, ent, off, _, slot, 0] =>
           some (.invoke { bar := bar, slot := BitVec.ofNat 8 slot, argent := BitVec.ofNat 3 ent, argoff := BitVec.ofNat 48 off,
                           xh0 := BitVec.ofNat 16 x0, xh1 := BitVec.ofNat 16 x1, xh2 := BitVec.ofNat 16 x2,
                           xh3 := BitVec.ofNat 16 x3, xh4 := BitVec.ofNat 16 x4, xh5 := BitVec.ofNat 16 x5,
                           xh6 := BitVec.ofNat 16 x6, xh7 := BitVec.ofNat 16 x7 })
         | _ => none)
      | 0x02, _ =>
        (match unpack [64, 32, 32, 32, 32, 16, 48, 16, 48, 16, 48, 16, 48, 16, 43, 1, 4] n with
         | [0, 0, tout, 0, acode, x3, o3, x2, o2, x1, o1, x0, o0, _, 0, any, use] =>
           some (.barrier { bar := bar, any := any == 1, use := BitVec.ofNat 4 use, c0 := barCond x0 o0, c1 := barCond x1 o1,
                            c2 := barCond x2 o2, c3 := barCond x3 o3, acode := BitVec.ofNat 32 acode,
                            tout := BitVec.ofNat 32 tout })
         | _ => none)
      | 0x03, _ =>
        (match unpack [320, 64, 16, 48, 16, 47, 1] n with
         | [0, v, xh, off, _, 0, op] =>
           some (.signal { bar := bar, op := op == 1, xh := BitVec.ofNat 16 xh, off := BitVec.ofNat 48 off,
                           value := BitVec.ofNat 64 v })
         | _ => none)
      | 0x04, _ =>
        (match unpack [256, 24, 40, 16, 48, 16, 48, 16, 48] n with
         | [0, 0, len, dxh, doff, sxh, soff, _, 0] =>
           some (.copyPacket { bar := bar, sxh := BitVec.ofNat 16 sxh, soff := BitVec.ofNat 48 soff, dxh := BitVec.ofNat 16 dxh,
                               doff := BitVec.ofNat 48 doff, len := BitVec.ofNat 40 len })
         | _ => none)
      | 0x05, _ =>
        (match unpack [448, 16, 48] n with
         | [0, _, 0] => some (.reset { bar := bar })
         | _ => none)
      | _, _ => none
    (match x with
     | some y => if fieldsLegal y then some y else none
     | none => none)
  | _ => none

/-- The header of a packet, as fields: KIND, BAR, zeros. -/
def pktHdr (kind : Nat) (bar : Bool) : List (Nat × Nat) := [(8, kind), (1, b2n bar), (7, 0)]

/-- The eight words of a launch packet. -/
def encodePacket (x : Instr) : Option Bits512 :=
  match x with
  | .invoke p =>
    some (BitVec.ofNat 512 (pack ([(256, 0), (16, p.xh7.toNat), (16, p.xh6.toNat), (16, p.xh5.toNat), (16, p.xh4.toNat),
      (16, p.xh3.toNat), (16, p.xh2.toNat), (16, p.xh1.toNat), (16, p.xh0.toNat), (13, 0), (3, p.argent.toNat),
      (48, p.argoff.toNat)] ++ pktHdr 0x01 p.bar ++ [(8, p.slot.toNat), (40, 0)])))
  | .barrier p =>
    some (BitVec.ofNat 512 (pack ([(64, 0), (32, 0), (32, p.tout.toNat), (32, 0), (32, p.acode.toNat), (16, p.c3.xh.toNat),
      (48, p.c3.off.toNat), (16, p.c2.xh.toNat), (48, p.c2.off.toNat), (16, p.c1.xh.toNat), (48, p.c1.off.toNat),
      (16, p.c0.xh.toNat), (48, p.c0.off.toNat)] ++ pktHdr 0x02 p.bar ++ [(43, 0), (1, b2n p.any), (4, p.use.toNat)])))
  | .signal p =>
    some (BitVec.ofNat 512 (pack ([(320, 0), (64, p.value.toNat), (16, p.xh.toNat), (48, p.off.toNat)] ++ pktHdr 0x03 p.bar
      ++ [(47, 0), (1, b2n p.op)])))
  | .copyPacket p =>
    some (BitVec.ofNat 512 (pack ([(256, 0), (24, 0), (40, p.len.toNat), (16, p.dxh.toNat), (48, p.doff.toNat),
      (16, p.sxh.toNat), (48, p.soff.toNat)] ++ pktHdr 0x04 p.bar ++ [(48, 0)])))
  | .reset p => some (BitVec.ofNat 512 (pack ([(448, 0)] ++ pktHdr 0x05 p.bar ++ [(48, 0)])))
  | _ => none

/-! ## All of them -/

/-- The word of an instruction, with its width in bits: 256 for a bundle or a tile command, 32 for a walker instruction, 512 for a
launch packet. Operations, host commands and events have no word of their own. -/
def encode (x : Instr) : Option (Nat × Nat) :=
  match x with
  | .move b => some (256, (encodeBundle b).toNat)
  | _ =>
    match encodeTile x, encodeWalker x, encodePacket x with
    | some w, _, _ => some (256, w.toNat)
    | none, some w, _ => some (32, w.toNat)
    | none, none, some w => some (512, w.toNat)
    | none, none, none => none

/-- The instruction of a word as the opcode table numbers its bits. The table's rows with bits are the walker instructions, 32 bits
each; of 256 bits the decoder reads a bundle, of 512 a launch packet. -/
def decodeTableWord (nbits w : Nat) : Option Instr :=
  if nbits = 32 then
    match decodeWalker (BitVec.ofNat 32 (ofBytes (toBytes w 4))) with
    | .ok i => some i
    | .error _ => none
  else if nbits = 256 then
    match decodeBundle true (BitVec.ofNat 256 (ofBytes (toBytes w 32))) with
    | .ok b => some (.move b)
    | .error _ => none
  else if nbits = 512 then decodePacket (BitVec.ofNat 512 (ofBytes (toBytes w 64)))
  else none

end Sys2Proof
end

