-- ==== Sys2Proof/Machine/MemEvents.lean ====
section
/-! DEFINITION. What memory does by itself: the movement of extents between HBM and tier 2 (R232, R415), tier-2 failures and joins
(R416), and errors that protection finds (R159, R223, R224, R231, R422). -/

namespace Sys2Proof.Machine

/-! ## Extents -/

/-- An extent's record stored; the record of a plain extent in HBM is not kept. -/
def State.setExt (s : State) (k : Nat) (e : Ext) : State :=
  { s with exts := if e = Ext.hbm then s.exts.erase k else s.exts.set k e }

/-- The extents of a MEM that its tier-2 device holds. -/
def State.tier2Count (s : State) (m : Nat) : Nat :=
  (s.exts.filter (fun p => extMem p.1 == m && (p.2.st == .tier2 || p.2.st == .migrating))).length

/-- The free extents of a MEM's HBM (R14). -/
def State.hbmFree (s : State) (m : Nat) : Nat := hbmExtents + s.tier2Count m + s.lostCount m - s.extUsed.get m 0

/-- EXTENT_MIGRATION (R232): the migrating extent that the turn's item keys has come into HBM. -/
def execExtentMigration (s : State) : Host.Outcome State Fault Refusal :=
  let k := s.turn.item
  let e := s.ext k
  if e.st = .migrating ∧ 0 < s.hbmFree (extMem k) then .next (s.setExt k { e with st := .hbm }) else .next s

/-- The extents of a live buffer on a MEM. -/
def bufExts (bid : Nat) (b : Buf) (m : Nat) : List Nat :=
  if b.state = 0 ∨ (b.plc ∧ b.pmem.toNat ≠ m) then []
  else (List.range (extentsPerMem b.size b.plc)).map (fun i => (bid * 8 + m) * 2 ^ 20 + i)

/-- The extents that the rows of a load into a typed buffer lie in (R315). -/
def State.loadExts (s : State) (q : QEnt) : List Nat :=
  let rows : MloadBody → List Nat := fun b => match b.src with
    | .buf soff spitch => ((List.range b.rows.toNat).flatMap (fun (r : Nat) =>
        (granules (hAddr q.h0 ((soff.toNat : Int) + spitch.toInt * r).toNat) b.rlen.toNat).map (fun g => s.extAt (g * 64)))).eraseDups
    | .shared _ _ _ _ _ => []
  match decodeTile q.word with
  | some (.mloadw _ b) => rows b
  | some (.mloada _ b) => rows b
  | _ => []

/-- The extents of the loads into typed buffers that are in progress, which stay in HBM (R415). -/
def State.loadingExts (s : State) : List Nat :=
  s.engines.flatMap (fun e => (e.2.cur.toList ++ e.2.saved).flatMap (fun c => s.loadExts c.main.ent))

/-- The extents of a MEM that may leave HBM: resident, not pinned, and no part of a load in progress (R415). -/
def State.demotable (s : State) (m : Nat) : List Nat :=
  let held := s.loadingExts
  (s.bufs.flatMap (fun p => bufExts p.1 p.2 m)).filter (fun k => (s.ext k).st == .hbm && !(s.ext k).pinned && !held.contains k)

/-- Of extents, the one accessed least recently. DEDUCED (log 32). -/
def State.coldest (s : State) : List Nat → Option Nat
  | [] => none
  | k :: ks =>
    match s.coldest ks with
    | none => some k
    | some j => if (s.ext k).acc ≤ (s.ext j).acc then some k else some j

/-- n extents of a MEM demoted, coldest first. DEDUCED (log 32). -/
def State.demote (s : State) (m : Nat) : Nat → State
  | 0 => s
  | n + 1 =>
    match s.coldest (s.demotable m) with
    | some k => (s.setExt k { s.ext k with st := .tier2 }).demote m n
    | none => s

/-- EXTENT_DEMOTION (R415): below 2 % free HBM extents, the MEM that the turn's item names demotes until 4 % are free, as far as its
tier-2 device has room. -/
def execExtentDemotion (s : State) : Host.Outcome State Fault Refusal :=
  let m := s.turn.item
  let free := s.hbmFree m
  let room := s.tier2.get m 0 - s.tier2Count m
  if free * 50 < hbmExtents then .next (s.demote m (min room (ceilDiv (hbmExtents * 4) 100 - free))) else .next s

/-- The bit of a MEM's UNITS field that says its tier-2 port is in service (R352). -/
def State.setTier2Unit (s : State) (m : Nat) (v : Bool) : State :=
  let d := s.siteDisc (16 + m)
  s.setDisc (16 + m) { d with units := putFld d.units 50 1 (b2n v) }

/-- TIER2_DEVICE_FAILURE (R416): every extent that the device held is lost, and its port leaves service. -/
def execTier2DeviceFailure (mem : BitVec 3) (s : State) : Host.Outcome State Fault Refusal :=
  let m := mem.toNat
  let lose : Nat × Ext → Nat × Ext := fun p =>
    if extMem p.1 = m ∧ (p.2.st = .tier2 ∨ p.2.st = .migrating) then (p.1, { p.2 with st := .lost }) else p
  .next ({ s with exts := s.exts.map lose, tier2 := s.tier2.erase m }.setTier2Unit m false)

/-- TIER2_DEVICE_JOIN (R416): an empty device of a free size joins; lost extents stay lost. -/
def execTier2DeviceJoin (mem : BitVec 3) (s : State) : Host.Outcome State Fault Refusal :=
  let d := s.draw (2 ^ 20)
  .next ({ d.2 with tier2 := d.2.tier2.set mem.toNat (1 + d.1) }.setTier2Unit mem.toNat true)

/-! ## Errors (R422) -/

/-- The granule that holds an address poisoned. -/
def State.poisonAt (s : State) (a : Nat) : State := { s with poison := insertNat (a / 64) s.poison }

/-- A counter of SYS.DIAG raised, saturating (R159). -/
def satInc (x : BitVec 32) : BitVec 32 := if x.toNat = 2 ^ 32 - 1 then x else x + 1

/-- A full sill slot whose SECDED fails. DEDUCED (log 61). -/
def Ctx.poisonSill (x : Ctx) (slot : Nat) : Ctx :=
  if slot < 32 then
    let e := x.sillS.get slot SillS.empty
    if e.st = .full then { x with sillS := x.sillS.set slot { e with st := .poisoned } } else x
  else
    let k := slot - 32
    let e := x.sillV.get k SillV.empty
    if k < 8 ∧ e.st = .full then { x with sillV := x.sillV.set k { e with st := .poisoned } } else x

/-- The compute site in which an error that could not be corrected lies. -/
def errSite : ErrLoc → Option Nat
  | .privScratch core _ => some (siteOf core.toNat)
  | .sharedScratch site _ => some site.toNat
  | .typed site _ _ _ => some site.toNat
  | .imem core _ _ => some (siteOf core.toNat)
  | .shadow core _ => some (siteOf core.toNat)
  | .sill core _ => some (siteOf core.toNat)
  | .regParity core true => some (siteOf core.toNat)
  | _ => none

/-- A compute site with an error that could not be corrected is noted: firmware forces its drain (R423). -/
def State.noteError (s : State) (loc : ErrLoc) : State :=
  match errSite loc with
  | some n => if n < 16 then { s with errored := insertNat n s.errored } else s
  | none => s

/-- A gang after an error has struck the pre-emption slot of a core (R224). -/
def Saved.struck (g : Saved) (n : Nat) : Saved :=
  if g.ctxs.any (fun p => p.1 == n) then
    match g.place with
    | .memory => g
    | .incoming b => { g with place := .incoming (insertNat n b) }
    | .outgoing => { g with bad := insertNat n g.bad }
  else g

/-- UNCORRECTABLE_ERROR (R231, R422, R423): what the failing place holds is poisoned, and the errors that SYS.DIAG counts are counted. -/
def execUncorrectableError (loc : ErrLoc) (s : State) : Host.Outcome State Fault Refusal :=
  let s := s.noteError loc
  match loc with
  | .buffer bid off => .next (s.poisonAt (bufAddr bid.toNat off.toNat))
  | .privScratch core off =>
    if off.toNat < s.psmSize core.toNat then .next (s.poisonAt (2 ^ 64 + core.toNat * 2 ^ 20 + off.toNat)) else .next s
  | .sharedScratch site off => .next (s.poisonAt (ssmAddr site.toNat off.toNat))
  | .typed site array buf off =>
    if buf.toNat < 3 ∧ off.toNat < typedSize buf.toNat then
      .next (s.poisonAt (3 * 2 ^ 64 + ((site.toNat * 8 + array.toNat) * 4 + buf.toNat) * 2 ^ 22 + off.toNat))
    else .next s
  | .imem core entry bundle =>
    .next (s.modCore core.toNat (fun c =>
      { c with overlays := c.overlays.zipIdx.map (fun p =>
          if p.2 = entry.toNat ∧ bundle.toNat < p.1.size then { p.1 with bad := insertNat bundle.toNat p.1.bad } else p.1) }))
  | .shadow core preempt =>
    if preempt then
      .next ({ s with saved := s.saved.map (fun (g : Saved) => g.struck core.toNat) }.modCore core.toNat (fun c =>
        { c with preemptBad := c.preemptBad || c.preempt.isSome }))
    else
      .next (s.modCore core.toNat (fun c =>
        c.modCtx (fun x => { x with trapSlot := x.trapSlot.map (fun t => { t with poisoned := true }) })))
  | .sill core slot => .next (s.modCtx core.toNat (fun x => x.poisonSill slot.toNat))
  | .privCorrected core => .next (s.modCore core.toNat (fun c => { c with diagPriv := satInc c.diagPriv }))
  | .sharedCorrected site =>
    .next { s with diagShared := s.diagShared.set site.toNat (satInc (s.diagShared.get site.toNat 0)) }
  | .regParity core again =>
    .next (s.modCore core.toNat (fun c => { c with diagPar := satInc c.diagPar, parityBad := c.parityBad || again }))

end Sys2Proof.Machine
end

