-- ==== Sys2Proof/Machine/Fabric.lean ====
section
/-! DEFINITION. The fabric: its links (R11), the routes of the routing table (R12), and the slots that traffic in flight takes (R365). -/

namespace Sys2Proof.Machine

/-- The 49 fabric links by their endpoints (R11), numbered in the order of its table. -/
def fabricLinks : List (Nat × Nat) :=
  ((List.range 16).filter (fun n => n % 4 != 3)).map (fun n => (n, n + 1))
    ++ (List.range 12).map (fun n => (n, n + 4))
    ++ (List.range 4).map (fun k => (16 + k, 4 * k))
    ++ (List.range 4).map (fun k => (20 + k, 4 * k + 3))
    ++ [(16, 17), (17, 18), (18, 19), (20, 21), (21, 22), (22, 23)]
    ++ [(24, 1), (24, 2), (24, 16), (24, 20)]
    ++ [(25, 12), (25, 13), (25, 19), (26, 14), (26, 15), (26, 23), (25, 26)]

/-- The numbers of the links of a site. -/
def linksOfSite (site : Nat) : List Nat :=
  (fabricLinks.zipIdx.filter (fun (p : (Nat × Nat) × Nat) => p.1.1 == site || p.1.2 == site)).map (fun (p : (Nat × Nat) × Nat) => p.2)

/-- Whether a route crosses a link: two sites on it in succession are the link's. -/
def crosses (e : Nat × Nat) (route : List Nat) : Bool :=
  (route.zip route.tail).any (fun p => (p.1 == e.1 && p.2 == e.2) || (p.1 == e.2 && p.2 == e.1))

/-- The route from one site to another (R12). -/
def State.route (s : State) (a b : Nat) : List Nat := s.fabric.get (a * 32 + b) []

/-- The slots of a fabric link that accesses in flight take by the routing table (R12, R365): requests of loads, written-out lines and
remote increments. An access of an engine, an update pair or a host is made and answered in one act, and none of it is in flight between
two acts. DEDUCED (log 91). -/
def State.linkTaken (s : State) (l : Nat) : Nat :=
  let e := fabricLinks.getD l (0, 0)
  let on : Nat → Nat → Bool := fun a b => crosses e (s.route a b)
  let memSite : Nat → Nat := fun a => 16 + s.memAt a
  let core : Nat × Core → Nat := fun c =>
    let n := siteOf c.1
    (c.2.ctx.loads.flatMap (fun x => x.todo.filter (fun g => on n (memSite (g * 64))))).length +
      (c.2.outs.filter (fun o => o.cells.head?.any (fun p => on n (memSite p.1)))).length
  (s.cores.map core).foldl (fun (a b : Nat) => a + b) 0 + (s.remotes.filter (fun r => on r.fromSite (s.crew r.crew).site)).length

/-- The free slots of a fabric link (R365). -/
def State.linkFree (s : State) (l : Nat) : Nat := Config.linkSlots l - s.linkTaken l

/-- The links of the paths of a site: those that a route from it to another site, or back, crosses. -/
def State.pathLinks (s : State) (site : Nat) : List Nat :=
  (List.range 49).filter (fun l =>
    let e := fabricLinks.getD l (0, 0)
    (List.range 27).any (fun b => crosses e (s.route site b) || crosses e (s.route b site)))

/-- Whether the free-slot counters of every path of some sites show nothing in flight (R66, R272). -/
def State.pathsEmpty (s : State) (sites : List Nat) : Bool :=
  sites.all (fun a => (s.pathLinks a).all (fun l => s.linkTaken l == 0))

end Sys2Proof.Machine
end

