-- ==== Sys2Proof/Machine/Walker.lean ====
section
/-! DEFINITION. The walkers and their intersect units (R321-R327). -/

namespace Sys2Proof.Machine

/-! ## Registers, tiles and faults -/

/-- A walker register. -/
def Walker.reg (w : Walker) (r : BitVec 4) : BitVec 32 := w.regs.get r.toNat 0
/-- A walker register written. -/
def Walker.setReg (w : Walker) (r : BitVec 4) (v : BitVec 32) : Walker := { w with regs := w.regs.set r.toNat v }
/-- The walker at its next instruction. -/
def Walker.step (w : Walker) : Walker := { w with pc := w.pc + 1 }
/-- Bytes of an element. -/
def Walker.ebytes (w : Walker) : Nat := 2 ^ w.esz
/-- Bytes of a tile row. -/
def Walker.rowBytes (w : Walker) : Nat := (w.tclast + 1) * w.ebytes
/-- The A offset of the current slot. -/
def Walker.toff (w : Walker) : Nat := if w.cur then w.toff1 else w.toff0

/-- The WALKER error with its ESTAT; DETAIL holds the program counter (R126, R324). -/
def walkerErr (w : Walker) (estat : Nat) : EngErr :=
  { code := cWALKER, detail := BitVec.ofNat 64 w.pc, handle := 0, estat := estat }

/-- The array that walker w of a chiplet feeds: array w (R324, WAITA). -/
def walkerArray (e : Nat) : Nat := 128 + engSite e * 8 + engNum e

/-- The A share that a walker's entry writes (R222, R323). -/
def State.walkerArea (s : State) (e : Nat) (q : QEnt) : Nat × Nat := s.arrayShareOf (walkerArray e) 1 q

/-- The current slot zero-filled, row by row. -/
def State.zeroSlot (s : State) (e : Nat) (q : QEnt) (w : Walker) : State :=
  (List.range (w.trlast + 1)).foldl (fun t i =>
    t.typedWrite (s.walkerArea e q) (w.toff + i * w.tpitch) (List.replicate w.rowBytes 0)) s

/-! ## WLOAD (R322) -/

/-- WLOAD's checks. -/
def wloadChk (b : WloadBody) (s : State) (q : QEnt) : Option EngErr := s.entErr q q.h0 b.soff.toNat (4 * b.ni.toNat) .r

/-- Instructions put into a program store from an index on. -/
def loadStore : List Byte → Nat → Nat → NMap (BitVec 32) → NMap (BitVec 32)
  | _, _, 0, m => m
  | bs, i, n + 1, m => loadStore (bs.drop 4) (i + 1) n (m.set i (BitVec.ofNat 32 (ofBytes (bs.take 4))))

/-- WLOAD (R322). -/
def execWload (_ : TcHdr) (b : WloadBody) (s : State) : Host.Outcome State Fault Refusal :=
  let e := s.turn.engine
  runEntry (b.ni == 0) (wloadChk b) (fun t a =>
    match t.engRead a.ent.h0 b.soff.toNat (4 * b.ni.toNat) with
    | .error r => .fail r
    | .ok p =>
      let w := p.2.walker e
      .done (p.2.setWalker e { w with store := loadStore p.1 b.dpc.toNat b.ni.toNat w.store })) s

/-! ## WRUN (R323) -/

/-- The bytes of a tile row as a WRUN names them. -/
def wrunRow (b : WrunBody) : Nat := (b.tclast.toNat + 1) * 2 ^ b.esz.toNat

/-- WRUN's checks: both slots in the A share, the image, and H1 unless it is handle 0. -/
def wrunChk (e : Nat) (b : WrunBody) (s : State) (q : QEnt) : Option EngErr :=
  let size := (s.walkerArea e q).2
  firstErr [areaErr size b.toff0.toNat b.tpitch.toNat (b.trlast.toNat + 1) (wrunRow b),
    areaErr size b.toff1.toNat b.tpitch.toNat (b.trlast.toNat + 1) (wrunRow b),
    s.entErr q q.h0 b.ioff.toNat 64 .r, if q.h1 = 0 then none else s.entErr q q.h1 0 0 .r]

/-- The walker as a WRUN starts it: the intersect unit and the program store keep what they hold. -/
def Walker.start (w : Walker) (b : WrunBody) (image : List Byte) : Walker :=
  { w with
    regs := loadStore image 0 16 []
    pc := b.pc.toNat
    toff0 := b.toff0.toNat
    toff1 := b.toff1.toNat
    cur := false
    closed := 0
    count := 0
    status := 1
    trlast := b.trlast.toNat
    tclast := b.tclast.toNat
    esz := b.esz.toNat
    tpitch := b.tpitch.toNat
    maxi := if b.maxi = 0 then 2 ^ 32 else b.maxi.toNat }

/-- WRUN (R323): the walker starts; the program's instructions follow, one a step, until DONE. -/
def execWrun (_ : TcHdr) (b : WrunBody) (s : State) : Host.Outcome State Fault Refusal :=
  let e := s.turn.engine
  runEntry false (wrunChk e b) (fun t a =>
    if a.prog ≠ 0 then .wait
    else
      match t.engRead a.ent.h0 b.ioff.toNat 64 with
      | .error r => .fail r
      | .ok p =>
        let w := (p.2.walker e).start b p.1
        .more ((p.2.setWalker e w).zeroSlot e a.ent w) 1) s

/-! ## WSTAT (R327) -/

/-- The status record. -/
def Walker.record (w : Walker) : List Byte :=
  (List.range 16).flatMap (fun i => toBytes (w.regs.get i 0).toNat 4)
    ++ toBytes w.pc 4 ++ toBytes w.status 4 ++ toBytes w.acc.toNat 4 ++ toBytes w.px.toNat 4 ++ toBytes w.py.toNat 4
    ++ toBytes w.closed.toNat 4 ++ toBytes w.count 8 ++ List.replicate 32 0

/-- WSTAT (R327). -/
def execWstat (_ : TcHdr) (b : WstatBody) (s : State) : Host.Outcome State Fault Refusal :=
  let e := s.turn.engine
  runEntry false (fun t q => t.entErr q q.h1 b.doff.toNat 128 .w) (fun t a =>
    let d := hAddr a.ent.h1 b.doff.toNat
    if t.writeWaits d 128 then .wait else .done (t.engWrite d (t.walker e).record)) s

/-! ## The intersect unit (R326) -/

/-- Bytes of an element of EL. -/
def elBytes (el : BitVec 2) : Nat := if el = 2 then 2 else 1

/-- An element of EL read from its bits: I8 and I16 are signed, U8 is not. -/
def elValue (el : BitVec 2) (bits : Nat) : Int := readInt (el != 1) (8 * elBytes el) bits

/-- A value fetched at an exact offset of a handle: its view is checked at each fetch. DEDUCED (log 42). -/
def State.fetchVal (s : State) (q : QEnt) (h : Handle) (off : Nat) (el : BitVec 2) : Except ErrAt (Int × State) :=
  match s.boundsErr q h off (elBytes el) with
  | some r => .error (r, s)
  | none =>
    match s.engRead h off (elBytes el) with
    | .error r => .error r
    | .ok p => .ok (elValue el (ofBytes p.1), p.2)

/-- The pairs of one step at bit positions b, b + 1, ..., n of them: the accumulator with each product added (R326). -/
def State.stepPairs (s : State) (q : QEnt) (w : Walker) (x y : Nat) (acc : BitVec 32) (b : Nat) :
    Nat → Except ErrAt (BitVec 32 × State)
  | 0 => .ok (acc, s)
  | n + 1 =>
    if bitAt x b && bitAt y b then
      let e := elBytes w.el
      match s.fetchVal q q.h0 (w.xvb + (w.px.toNat + popcount x b) * e) w.el with
      | .error r => .error r
      | .ok vx =>
        match vx.2.fetchVal q q.h1 (w.yvb + (w.py.toNat + popcount y b) * e) w.el with
        | .error r => .error r
        | .ok vy => vy.2.stepPairs q w x y (acc + BitVec.ofInt 32 (vx.1 * vy.1)) (b + 1) n
    else s.stepPairs q w x y acc (b + 1) n

/-- One step of the intersect unit on two bitmap words (R326): it and the number of matches. A fetch that fails leaves the unit as
it was. DEDUCED (log 42). -/
def State.isectStep (s : State) (q : QEnt) (w : Walker) (x y : BitVec 32) : Except ErrAt ((Walker × Nat) × State) :=
  match s.stepPairs q w x.toNat y.toNat w.acc 0 32 with
  | .error r => .error r
  | .ok p =>
    .ok (({ w with acc := p.1, px := w.px + BitVec.ofNat 32 (popcount x.toNat 32),
                   py := w.py + BitVec.ofNat 32 (popcount y.toNat 32) }, popcount (x &&& y).toNat 32), p.2)

/-- ISECT's checks: right R on both handles, and the bitmap words to run. -/
def isectChk (b : IsectBody) (s : State) (q : QEnt) : Option EngErr :=
  let n := 4 * b.nw.toNat
  firstErr [s.entErr q q.h0 (if b.nw = 0 then 0 else b.xboff.toNat) n .r,
    s.entErr q q.h1 (if b.nw = 0 then 0 else b.yboff.toNat) n .r]

/-- The intersect unit as ISECT configures it. -/
def Walker.configure (w : Walker) (b : IsectBody) : Walker :=
  let v := { w with el := b.el, xvb := b.xvoff.toNat, yvb := b.yvoff.toNat, conf := true }
  if b.clr then { v with acc := 0, px := 0, py := 0 } else v

/-- One bitmap word of ISECT, after its configuration at the first. -/
def isectUnit (e : Nat) (b : IsectBody) (s : State) (a : Act) : UnitRes :=
  let n := a.prog
  let w := if n = 0 then (s.walker e).configure b else s.walker e
  let t := s.setWalker e w
  if n ≥ b.nw.toNat then .done t
  else
    match t.engRead a.ent.h0 (b.xboff.toNat + 4 * n) 4 with
    | .error r => .fail r
    | .ok x =>
      match x.2.engRead a.ent.h1 (b.yboff.toNat + 4 * n) 4 with
      | .error r => .fail r
      | .ok y =>
        match y.2.isectStep a.ent w (BitVec.ofNat 32 (ofBytes x.1)) (BitVec.ofNat 32 (ofBytes y.1)) with
        | .error r => .fail r
        | .ok p =>
          let u := p.2.setWalker e p.1.1
          if n + 1 ≥ b.nw.toNat then .done u else .more u (n + 1)

/-- ISECT (R326). -/
def execIsect (_ : TcHdr) (b : IsectBody) (s : State) : Host.Outcome State Fault Refusal :=
  runEntry false (isectChk b) (isectUnit s.turn.engine b) s

/-! ## Walker instructions (R324) -/

/-- An entry of nobody, for an instruction that no WRUN runs. -/
def QEnt.zero : QEnt :=
  { word := 0, h0 := 0, h1 := 0, core := 0, crew := 0, part := 0, stamp := 0, sill := 0, pkt := none, node := 0xFFFF, chain := none }

/-- The WRUN entry that a walker runs. -/
def State.walkerEnt (s : State) (e : Nat) : QEnt :=
  match s.active e with
  | some a => a.ent
  | none => QEnt.zero

/-- One instruction of the turn's walker: its effect gives the walker with its next program counter, or an error, with which the
instruction has no effect beyond its accesses to memory and the entry stops. The entry's progress index is the count of instructions plus 1. -/
def walkerOp (f : State → QEnt → Walker → Except ErrAt (Walker × State)) (s : State) : Host.Outcome State Fault Refusal :=
  let e := s.turn.engine
  match f s (s.walkerEnt e) (s.walker e) with
  | .error r => .next (r.2.stopEntry e r.1)
  | .ok p =>
    let w := { p.1 with count := p.1.count + 1 }
    .next ((p.2.setWalker e w).modCur e (fun x => x.modAct (fun a => { a with prog := w.count + 1 })))

/-- An instruction on registers alone. -/
def walkerReg (f : Walker → Walker) (s : State) : Host.Outcome State Fault Refusal :=
  walkerOp (fun t _ w => .ok (f w, t)) s

/-- A load of n bytes: the handle is H1 with WIMM[13] set, else H0; the offset is taken modulo 2^32. DEDUCED (log 42). -/
def walkerLoad (n : Nat) (wd wa : WReg) (imm : BitVec 14) (s : State) : Host.Outcome State Fault Refusal :=
  walkerOp (fun t q w =>
    let h := if imm.getLsbD 13 then q.h1 else q.h0
    let off := (w.reg wa + (imm.setWidth 13).setWidth 32).toNat
    match t.boundsErr q h off n with
    | some r => .error (r, t)
    | none =>
      match t.engRead h off n with
      | .error r => .error r
      | .ok p => .ok ((w.setReg wd (BitVec.ofNat 32 (ofBytes p.1))).step, p.2)) s

/-- LDW (R324). -/
def execWalkerLdw (wd wa : WReg) (imm : BitVec 14) (s : State) : Host.Outcome State Fault Refusal := walkerLoad 4 wd wa imm s
/-- LDH (R324). -/
def execWalkerLdh (wd wa : WReg) (imm : BitVec 14) (s : State) : Host.Outcome State Fault Refusal := walkerLoad 2 wd wa imm s
/-- LDB (R324). -/
def execWalkerLdb (wd wa : WReg) (imm : BitVec 14) (s : State) : Host.Outcome State Fault Refusal := walkerLoad 1 wd wa imm s

/-- ADDW (R324). -/
def execWalkerAddw (wd wa wb : WReg) (s : State) : Host.Outcome State Fault Refusal :=
  walkerReg (fun w => (w.setReg wd (w.reg wa + w.reg wb)).step) s
/-- SUBW (R324). -/
def execWalkerSubw (wd wa wb : WReg) (s : State) : Host.Outcome State Fault Refusal :=
  walkerReg (fun w => (w.setReg wd (w.reg wa - w.reg wb)).step) s
/-- ANDW (R324). -/
def execWalkerAndw (wd wa wb : WReg) (s : State) : Host.Outcome State Fault Refusal :=
  walkerReg (fun w => (w.setReg wd (w.reg wa &&& w.reg wb)).step) s
/-- SHRW (R324): 0 when WIMM is 32 or more. -/
def execWalkerShrw (wd wa : WReg) (imm : BitVec 14) (s : State) : Host.Outcome State Fault Refusal :=
  walkerReg (fun w => (w.setReg wd (w.reg wa >>> imm.toNat)).step) s
/-- POPC (R324). -/
def execWalkerPopc (wd wa : WReg) (s : State) : Host.Outcome State Fault Refusal :=
  walkerReg (fun w => (w.setReg wd (BitVec.ofNat 32 (popcount (w.reg wa).toNat 32))).step) s
/-- PFXP (R324). -/
def execPfxp (wd wa wb : WReg) (s : State) : Host.Outcome State Fault Refusal :=
  walkerReg (fun w =>
    (w.setReg wd (BitVec.ofNat 32 (popcount (w.reg wa).toNat (min (w.reg wb).toNat 32)))).step) s

/-- BNZ (R324). -/
def execBnz (wa : WReg) (imm : BitVec 14) (s : State) : Host.Outcome State Fault Refusal :=
  walkerReg (fun w => if w.reg wa ≠ 0 then { w with pc := imm.toNat } else w.step) s
/-- BZ (R324). -/
def execBz (wa : WReg) (imm : BitVec 14) (s : State) : Host.Outcome State Fault Refusal :=
  walkerReg (fun w => if w.reg wa = 0 then { w with pc := imm.toNat } else w.step) s
/-- JMP (R324). -/
def execWalkerJmp (imm : BitVec 14) (s : State) : Host.Outcome State Fault Refusal :=
  walkerReg (fun w => { w with pc := imm.toNat }) s

/-- EMIT (R323, R324): an index past the tile is WALKER 3. -/
def execWalkerEmit (wa wb : WReg) (s : State) : Host.Outcome State Fault Refusal :=
  walkerOp (fun t q w =>
    let x := (w.reg wa).toNat
    let i := x / (w.tclast + 1)
    let j := x % (w.tclast + 1)
    if i > w.trlast then .error (walkerErr w 3, t)
    else
      .ok (w.step, t.typedWrite (t.walkerArea t.turn.engine q) (w.toff + i * w.tpitch + j * w.ebytes)
        (toBytes (w.reg wb).toNat w.ebytes))) s

/-- EMROW (R324). -/
def execEmrow (wa wb : WReg) (s : State) : Host.Outcome State Fault Refusal :=
  walkerOp (fun t q w =>
    let r := (w.reg wa).toNat
    let off := (w.reg wb).toNat
    if r > w.trlast then .error (walkerErr w 3, t)
    else
      match t.boundsErr q q.h0 off w.rowBytes with
      | some x => .error (x, t)
      | none =>
        match t.engRead q.h0 off w.rowBytes with
        | .error x => .error x
        | .ok p => .ok (w.step, p.2.typedWrite (t.walkerArea t.turn.engine q) (w.toff + r * w.tpitch) p.1)) s

/-- NEXTT (R324). -/
def execNextt (s : State) : Host.Outcome State Fault Refusal :=
  walkerOp (fun t q w =>
    let v := { w with cur := !w.cur, closed := w.closed + 1 }.step
    .ok (v, t.zeroSlot t.turn.engine q v)) s

/-- Whether array w of a walker's chiplet has no entry executing or queued: another partition's that a cut has stopped is neither. -/
def State.arrayIdle (s : State) (e : Nat) : Bool :=
  let x := s.eng (walkerArray e)
  x.cur.isNone && x.queue.isEmpty && x.saved.all (fun c => c.main.ent.part != (s.walkerEnt e).part) && x.elastic.all (fun p => p.2.isEmpty)

/-- WAITA (R324): the walker stays at it until its array is idle. -/
def execWaita (s : State) : Host.Outcome State Fault Refusal :=
  if s.arrayIdle s.turn.engine then walkerReg Walker.step s else .next s

/-- ISTEP (R326): WALKER 6 while the intersect unit is not configured. -/
def execIstep (wd wa wb : WReg) (s : State) : Host.Outcome State Fault Refusal :=
  walkerOp (fun t q w =>
    if !w.conf then .error (walkerErr w 6, t)
    else
      match t.isectStep q w (w.reg wa) (w.reg wb) with
      | .error r => .error r
      | .ok p => .ok ((p.1.1.setReg wd (BitVec.ofNat 32 p.1.2)).step, p.2)) s

/-- DONE (R323, R324): the entry completes. -/
def execDone (s : State) : Host.Outcome State Fault Refusal :=
  let e := s.turn.engine
  let w := s.walker e
  .next ((s.setWalker e { w with count := w.count + 1, status := 0 }).finishEntry e)

/-- The instruction word that a walker fetches, unless the limit of MAXI is reached or nothing was loaded there (R324). -/
def Walker.fetch (w : Walker) : Except EngErr (BitVec 32) :=
  if w.count ≥ w.maxi then .error (walkerErr w 7)
  else if w.pc > 4095 then .error (walkerErr w 5)
  else
    match w.store.find w.pc with
    | some x => .ok x
    | none => .error (walkerErr w 5)

end Sys2Proof.Machine
end

