-- ==== Sys2Proof/Machine/Graph.lean ====
section
/-! DEFINITION. Graph instances, nodes and crews as the hub holds them: eligibility and ready lists (R37, R344-R349), what a crew that
ends gives back (R43), aborts (R65, R273) and the end of an instance (R32, R43, R261). -/

namespace Sys2Proof.Machine

/-! ## Eligibility (R37, R352) -/

/-- The cores of a site that are in a partition's core mask and in service. -/
def State.maskCores (s : State) (p site : Nat) : List Nat :=
  ((List.range 16).filter (fun i =>
    s.isCore (site * 16 + i) && (s.part p).masks.core.getLsbD (site * 16 + i) && (s.siteDisc site).cores.getLsbD i)).map
      (fun i => site * 16 + i)

/-- Whether a site has a unit of its class in a partition's masks and in service: an array of DMX and SPX, a sort engine of SRT. -/
def State.unitInMask (s : State) (p site cls : Nat) : Bool :=
  let m := (s.part p).masks
  let u := (s.siteDisc site).units
  match cls with
  | 0 => (List.range 8).any (fun a => m.array.getLsbD (site * 8 + a) && u.getLsbD a)
  | 1 => (List.range 4).any (fun a => m.array.getLsbD (site * 8 + a) && u.getLsbD a)
  | 3 => (List.range 4).any (fun e => m.sort.getLsbD (site * 4 + e) && u.getLsbD (12 + e))
  | _ => true

/-- Whether a site is eligible for a crew of a width in a class (R37). -/
def State.eligible (s : State) (p width cls site : Nat) : Bool :=
  let d := s.siteDisc site
  d.st == .ready && d.cls.toNat == cls && decide (width ≤ (s.maskCores p site).length) && s.unitInMask p site cls

/-- Crew width of a node (R341). -/
def Node.crewWidth (n : Node) : Nat := n.width.toNat + 1

/-- The partition of a node. -/
def State.nodePart (s : State) (n : Node) : Nat := (s.rcb n.rcb).part.toNat

/-- Whether a class has an eligible instance for a node. -/
def State.classOpen (s : State) (n : Node) (cls : Nat) : Bool :=
  (List.range 16).any (fun i => s.eligible (s.nodePart n) n.crewWidth cls i)

/-- One 16-bit preference of a node entry's w1 (R341). -/
def prefAt (w : Word) (i : Nat) : Pref :=
  { cls := BitVec.ofNat 2 (fld w (16 * i + 13) 2), image := BitVec.ofNat 2 (fld w (16 * i + 11) 2), prog := BitVec.ofNat 11 (fld w (16 * i) 11) }

/-- The preference list of w1 (R341): PREF0, then each next one until its V is 0. -/
def prefList (w : Word) : List Pref :=
  prefAt w 0 :: (if w.getLsbD 31 then prefAt w 1 :: (if w.getLsbD 47 then [prefAt w 2] else []) else [])

/-- The preferences of a node. -/
def Node.prefs (n : Node) : List Pref := prefList n.prefWord

/-- The first preference of a node whose class has an eligible instance (R37, R355). DEDUCED (log 52). -/
def State.firstPref (s : State) (n : Node) : Option Pref := n.prefs.find? (fun f => s.classOpen n f.cls.toNat)

/-- The preference of a node for a class. -/
def Node.prefFor (n : Node) (cls : Nat) : Option Pref := n.prefs.find? (fun f => f.cls.toNat == cls)

/-- A node's effective priority (R36). -/
def State.nodeLevel (s : State) (n : Node) : Nat :=
  min (if n.pinh then s.effPrio n.rcb else n.prio.toNat) (s.ceilOf (s.nodePart n))

/-! ## Ready lists (R345, R347-R349) -/

/-- Whether an item stands before another in a level: by arrival tick, by row and column of instances that one grid node released in a
tick, and by order; items that aged together keep their order (R349). -/
def Ready.before (a b : Ready) : Bool :=
  if a.arrive ≠ b.arrive then decide (a.arrive < b.arrive)
  else if a.node = b.node ∧ a.fresh ∧ b.fresh then decide (a.gy < b.gy) || (a.gy == b.gy && decide (a.gx < b.gx))
  else decide (a.stamp < b.stamp)

/-- An item put in its place. -/
def insertReady (r : Ready) : List Ready → List Ready
  | [] => [r]
  | x :: xs => if r.before x then r :: x :: xs else x :: insertReady r xs

/-- The fault NO_CLASS of a node at dispatch (R37, R75): DETAIL is w1 of its entry. -/
def noClassFault (n : Node) : FaultInfo :=
  { code := cNO_CLASS, src := 2, more := false, slot := 0, bidx := 0, detail := n.prefWord, handle := 0, estat := 0, esite := 0,
    eng := 0, cidxq := 0, pidxv := 0 }

/-- A node's fault at dispatch, to be delivered next. -/
def State.raiseNoClass (s : State) (k : Nat) : State :=
  let n := s.node k
  s.front [.run { Turn.zero with part := s.nodePart n, item := k, fault := some (noClassFault n) } .fault]

/-- An instance of a READY node joins the ready list of the first class that has an eligible instance, at the tail of its level; with
none the node faults NO_CLASS (R347). -/
def State.enterReady (s : State) (k gx gy : Nat) : State :=
  let n := s.node k
  match s.firstPref n with
  | none => s.raiseNoClass k
  | some f =>
    let r : Ready := { node := k, gx := gx, gy := gy, part := s.nodePart n, cls := f.cls.toNat, level := s.nodeLevel n,
                       arrive := s.tick, aged := s.tick, stamp := s.stamp, fresh := true }
    { s with ready := insertReady r s.ready, stamp := s.stamp + 1 }

/-- The key of a grid instance in its node's lists. -/
def gridKey (x y : Nat) : Nat := y * 1024 + x

/-- The offsets of a stencil (R344). -/
def stencilOffsets (st : BitVec 24) : List (Int × Int) :=
  (List.range 24).filterMap (fun i =>
    if st.getLsbD i then
      let k := if i < 12 then i else i + 1
      some ((k % 5 : Nat) - 2, (k / 5 : Nat) - 2)
    else none)

/-- Whether a place lies in a node's grid. -/
def Node.inGrid (n : Node) (x y : Int) : Bool :=
  decide (0 ≤ x) && decide (x ≤ (n.gxl.toNat : Int)) && decide (0 ≤ y) && decide (y ≤ (n.gyl.toNat : Int))

/-- Whether instance (x, y) is released: every instance it depends on that lies inside the grid has retired (R345). -/
def Node.releasable (n : Node) (x y : Nat) : Bool :=
  (stencilOffsets n.stencil).all (fun o =>
    !n.inGrid (x + o.1) (y + o.2) || n.done.contains (gridKey (x + o.1).toNat (y + o.2).toNat))

/-- The instances of a node in ascending y, then ascending x. -/
def Node.places (n : Node) : List (Nat × Nat) :=
  if n.grid then (List.range (n.gyl.toNat + 1)).flatMap (fun y => (List.range (n.gxl.toNat + 1)).map (fun x => (x, y)))
  else [(0, 0)]

/-- Instances of a node released to its ready list, in order. -/
def State.release (s : State) (k : Nat) (ps : List (Nat × Nat)) : State :=
  ps.foldl (fun t p =>
    let n := t.node k
    (t.setNode k { n with released := n.released ++ [gridKey p.1 p.2] }).enterReady k p.1 p.2) s

/-- A node whose pending count is 0 becomes READY, and its instances that depend on none are released (R39, R345). -/
def State.makeReady (s : State) (k : Nat) : State :=
  let n := s.node k
  let t := s.setNode k { n with st := .ready }
  t.release k (n.places.filter (fun p => n.releasable p.1 p.2))

/-- The instances of a node that its retired or newly retired instances release (R345). -/
def State.releaseAround (s : State) (k x y : Nat) : State :=
  let n := s.node k
  let near := (stencilOffsets n.stencil).filterMap (fun o =>
    let px : Int := x - o.1
    let py : Int := y - o.2
    if n.inGrid px py then some (px.toNat, py.toNat) else none)
  let new := near.filter (fun p => !n.released.contains (gridKey p.1 p.2) && n.releasable p.1 p.2)
  s.release k (new.filter (fun p => p.2 < y) ++ new.filter (fun p => p.2 = y) ++ new.filter (fun p => y < p.2))

/-- A READY item put into the list of the first class of its preferences that has an eligible instance, with its level and arrival tick;
with none its node faults NO_CLASS (R347). -/
def State.moveReady (s : State) (r : Ready) : State :=
  let rest := s.ready.filter (fun x => x.stamp != r.stamp)
  match s.firstPref (s.node r.node) with
  | some f => if f.cls.toNat = r.cls then s else { s with ready := insertReady { r with cls := f.cls.toNat } rest }
  | none => { s with ready := rest }.raiseNoClass r.node

/-- A READY item after a change of its class (R347): it stays while its class has an eligible instance, and moves otherwise.
DEDUCED (log 52). -/
def State.reclassOne (s : State) (r : Ready) : State :=
  if s.classOpen (s.node r.node) r.cls then s else s.moveReady r

/-- Every READY item re-evaluated after an instance of a class has changed state (R347): the items of the class, and those whose first
open class it has become. DEDUCED (log 52). -/
def State.reclass (s : State) (cls : Nat) : State :=
  s.ready.foldl (fun t r =>
    if r.cls = cls then t.reclassOne r
    else if (t.firstPref (t.node r.node)).any (fun f => f.cls.toNat == cls) then t.moveReady r
    else t) s

/-! ## Crews that end -/

/-- Whether the crew is a boot-mailbox strand's: it runs under the root RCB (R48). -/
def Crew.isMailbox (c : Crew) : Bool := c.rcb == 0

/-- A context whose strand has gone: registers, windows and accumulators keep their values until a strand starts or is restored
(R140, R169, R390). -/
def Ctx.vacant (x : Ctx) : Ctx :=
  { x with crew := 0, loads := [], slotOps := [], stream := Stream.none, upd := ⟨none, []⟩, latches := [], vxuLong := none, vlsLong := none,
           unresolved := none, carry := false, noted := [], arith := none, nopw := 0, trapSlot := none }

/-- A core without its strand. -/
def Core.vacate (c : Core) : Core :=
  { c with ctx := c.ctx.vacant, mode := .idle, preempt := none, preHead := 0, preemptBad := false, running := none, inflight := [], deferred := [],
           hold := none, stopReq := none, freeze := none, frozen := false, busy := false, movedC := [], badRestore := false,
           mbStrand := false, loadLeft := 0 }

/-- The stores that a core still holds for a crew dropped. -/
def Core.dropStores (c : Core) (crew : Nat) : Core :=
  { c with wcb := if c.ctx.crew = crew then [] else c.wcb
           outs := c.outs.filter (fun o => o.crew != crew)
           replay := c.replay.filter (fun o => o.crew != crew) }

/-- A core that a crew gives back. -/
def State.freeCore (s : State) (n crew : Nat) : State :=
  s.modCore n (fun c =>
    let d := c.dropStores crew
    if c.mode = .idle then { d with loadLeft := 0 } else if c.ctx.crew = crew then d.vacate else d)

/-- The leases that the cores of a crew hold ended (R311). -/
def State.endLeases (s : State) (c : Crew) : State :=
  { s with arrays := s.arrays.map (fun p =>
      match p.2.lhold with
      | some n => if c.cores.contains n ∧ p.1 % 64 = c.part then (p.1, p.2.endLease) else p
      | none => p) }

/-- A crew gone: its cores, segments and pins return to its chiplet and its identifier rests (R43, R255, R373). -/
def State.dropCrew (s : State) (k : Nat) : State :=
  let c := s.crew k
  let t := c.cores.foldl (fun u n => u.freeCore n k) s
  let t := (t.unpinCrew c.site k).endLeases c
  { t with
    crews := t.crews.erase k
    crewsEnded := if t.remotes.isEmpty then [] else k :: t.crewsEnded
    saved := t.saved.filter (fun g => g.crew != k)
    ssm := t.ssm.filter (fun r => r.crew != k || decide (4096 ≤ r.core))
    ssmGroups := t.ssmGroups.filter (fun p => p.2.crew != k || decide (4096 ≤ p.2.core))
    engines := t.engines.map (fun p => (p.1, { p.2 with base := p.2.base.erase k })) }

/-- The crews of a node: those in its instances. -/
def State.crewsOf (s : State) (k : Nat) : List Nat :=
  (s.crews.filter (fun p => p.2.node == k && !p.2.isMailbox)).map (fun p => p.1)

/-- The entries of a crew taken off an engine (R65): those not started are discarded, and one in execution stops here where it is at an
interruption point; otherwise it goes on to its next one, or completes. An engine that one of them had frozen is thawed.
DEDUCED (log 50). -/
def Engine.discard (e : Engine) (crew part : Nat) : Engine :=
  let mine : QEnt → Bool := fun q => q.crew == crew && q.pkt.isNone
  let froze := e.saved.any (fun x => mine x.main.ent)
  { e with
    queue := e.queue.filter (fun q => !mine q)
    cur := (match e.cur with
      | some x => if mine x.main.ent && (x.stoppable || !x.act.checked) then none else some x
      | none => none)
    elastic := (e.elastic.map (fun p => (p.1, p.2.filter (fun q => !mine q)))).filter (fun p => !p.2.isEmpty)
    saved := e.saved.filter (fun x => !mine x.main.ent)
    off := e.off.filter (fun q => !mine q)
    frozenParts := if froze then e.frozenParts.filter (fun p => p != part) else e.frozenParts }

/-- Every entry of a crew discarded. DEDUCED (log 50). -/
def State.discardEntries (s : State) (crew part : Nat) : State :=
  let gone : Engine → Bool := fun e => (e.cur.toList ++ e.saved).any (fun x => x.main.ent.crew == crew && x.main.ent.pkt.isNone) &&
    (e.discard crew part).cur.isNone
  (s.engines.filter (fun p => gone p.2)).foldl (fun t p => t.walkerIdle p.1)
    { s with engines := s.engines.map (fun p => (p.1, p.2.discard crew part)) }

/-! ## Freezing and thawing launch queues (R61, R65, R285) -/

/-- The launch queue that supplied a node: partition and number. -/
def State.nodeQueue (s : State) (k : Nat) : Nat × Nat :=
  let i := s.inst (s.node k).rcb
  (i.part, i.queue)

/-- A launch queue frozen by a fault. -/
def LaunchQ.freeze (q : LaunchQ) : LaunchQ :=
  match q.st with
  | .running => { q with st := .frozen }
  | .suspended => if q.before = .running then { q with before := .frozen } else q
  | _ => q

/-- A frozen launch queue thawed. DEDUCED (log 50). -/
def LaunchQ.thaw (q : LaunchQ) : LaunchQ :=
  match q.st with
  | .frozen => { q with st := .running }
  | .suspended => if q.before = .frozen then { q with before := .running } else q
  | _ => q

/-- The queue that supplied a node thawed, unless another node that it supplied is still FAULTED. -/
def State.thawQueue (s : State) (pq : Nat × Nat) : State :=
  if s.nodes.any (fun p => p.2.st == .faulted && s.nodeQueue p.1 == pq) then s
  else s.modQueue pq.1 pq.2 LaunchQ.thaw

/-! ## Fault records (R61-R63) -/

/-- The place of a core in its crew. -/
def Crew.indexOf (c : Crew) (n : Nat) : Nat := c.cores.findIdx (fun m => m == n)

/-- A fault record (R63). -/
def faultRecord (f : FaultInfo) (part crew node core cidx tick rcb : Nat) : Bits512 :=
  BitVec.ofNat 512 (packBits 64
    [ f.code % 256 + b2n f.more * 2 ^ 8 + f.src % 16 * 2 ^ 12 + node % 65536 * 2 ^ 16 + crew % 65536 * 2 ^ 32 + part % 256 * 2 ^ 48
        + 2 ^ 56,
      f.bidx % 8192 + f.slot % 8 * 2 ^ 17 + cidx % 16 * 2 ^ 20 + core % 256 * 2 ^ 24,
      f.cidxq % 65536 + f.eng % 256 * 2 ^ 16 + f.esite % 256 * 2 ^ 24 + f.estat % 2 ^ 32 * 2 ^ 32,
      f.detail.toNat, f.handle.toNat, tick, rcb, f.pidxv ])

/-- A fault ring. -/
def State.ring (s : State) (i : Nat) : Ring := s.rings.get i Ring.zero

/-- A record written to a fault domain, or dropped and counted when its ring is full (R62). A written one raises the fault interrupt of
the partition, or of firmware for the root. -/
def State.logFault (s : State) (dom part : Nat) (r : Bits512) : State :=
  let g := s.ring dom
  if 64 ≤ g.recs.length then
    let x := s.rcb dom
    s.setRcb dom { x with ovf := if x.ovf = 0xFFFF then x.ovf else x.ovf + 1 }
  else
    let t := { s with rings := s.rings.set dom { g with recs := g.recs ++ [r] } }
    if dom = 0 then { t with mgmt := { t.mgmt with fwFault := true } }
    else t.modPart part (fun p => { p with msix := p.msix ||| 1 })

/-- The tick at which a fault struck (R63): that at which its strand stopped issue, or, for a fault of an engine or of dispatch, now. -/
def State.faultTick (s : State) (n : Nat) (f : FaultInfo) : Nat := if f.src = 0 then (s.core n).faultAt / 30 else s.tick

/-- The record of a fault of a node written (R61 step 5): crew 0 stands for a node that has none. -/
def State.logNodeFault (s : State) (n k node : Nat) (f : FaultInfo) : State :=
  let i := (s.node node).rcb
  let part := s.nodePart (s.node node)
  s.logFault (s.faultDomain i) part
    (faultRecord f part k node n (if k = 0 then 0 else (s.crew k).indexOf n) (s.faultTick n f) i)

/-- The records of a crew's strands that still drain for faults of their own, in ascending core number: each writes its own before an abort
ends the crew (R61). DEDUCED (log 50). -/
def State.recordDraining (s : State) (k : Nat) : State :=
  (s.crew k).cores.foldl (fun t n =>
    match (t.core n).mode with
    | .drain (.fault f) => if (t.core n).ctx.crew = k ∧ f.src = 0 then t.logNodeFault n k (t.crew k).node f else t
    | _ => t) s

/-! ## Aborts (R65, R273) -/

/-- A crew of an aborted node: the faults that its strands drain for are recorded, its latches pass on marked, its entries are discarded, and it gives back what it holds. -/
def State.abortCrew (s : State) (k : Nat) : State :=
  let c := s.crew k
  let t := if c.isMailbox then s else s.recordDraining k
  let t := c.cores.foldl (fun u n => u.abortLatches n k) t
  (t.discardEntries k c.part).dropCrew k

/-- ABORT_NODE on a node (R65). -/
def State.abortNode (s : State) (k : Nat) : State :=
  let pq := s.nodeQueue k
  let t := (s.crewsOf k).foldl (fun u c => u.abortCrew c) s
  let t := { t with ready := t.ready.filter (fun r => r.node != k) }
  (t.setNode k { t.node k with st := .aborted, fault := none }).thawQueue pq

/-! ## The end of an instance -/

/-- An RCB that ends: its buffers are reclaimed (R261), and its index is free once they are gone. -/
def State.endRcb (s : State) (i : Nat) (st : BitVec 2) : State :=
  let t := s.reclaimOwned i
  if t.bufs.any (fun p => p.2.state != 0 && p.2.orcb == i) then t.setRcb i { t.rcb i with state := st }
  else { t with rcbs := t.rcbs.erase i }

/-- The extents of a buffer pinned in HBM, or released from it (R31, R415). -/
def State.pinExtents (s : State) (bid : Nat) (on : Bool) : State :=
  let b := s.buf bid
  (((List.range 8).flatMap (fun m =>
    if b.state = 0 ∨ (b.plc ∧ b.pmem.toNat ≠ m) then []
    else (List.range (extentsPerMem b.size b.plc)).map (fun i => (bid * 8 + m) * 2 ^ 20 + i))).foldl (fun t k =>
      let e := t.ext k
      let x : Ext := { e with pinned := on, st := if on && e.st == .tier2 then .hbm else e.st }
      { t with exts := if x = Ext.hbm then t.exts.erase k else t.exts.set k x }) s)

/-- The handles of a slot's images. -/
def Slot.imgs (x : Slot) : List Handle := [x.img0, x.img1, x.img2, x.img3]

/-- A resident slot emptied (R32, R357): its pinned buffers go, and its generation, replay count and templates stay. -/
def State.emptySlot (s : State) (p k : Nat) : State :=
  let x := (s.part p).slot k
  let shared : Handle → Bool := fun h => (s.part p).slots.any (fun y => y.1 != k && y.2.imgs.contains h)
  let t := (x.imgs.filter (fun h => h != 0 && !shared h)).foldl (fun u h => u.pinExtents (hBid h) false) s
  let t := (x.bufs.filter (fun h => h != 0)).foldl (fun u h => (u.pinExtents (hBid h) false).reclaim (hBid h)) t
  let z : Slot := { Slot.zero with sgen := x.sgen, rcnt := x.rcnt, rtpl0 := x.rtpl0, rtpl1 := x.rtpl1 }
  t.modPart p (fun y => { y with slots := y.slots.set k z })

/-- A slot whose unpinning was asked for is emptied once no instance of it is left (R32). -/
def State.settleSlot (s : State) (p k : Nat) : State :=
  if ((s.part p).slot k).state = 3 ∧ s.insts.all (fun i => !(i.2.part == p && i.2.slot == k)) then s.emptySlot p k else s

/-- The INVOKE of a graph instance completes with a code once the free-slot counters of every path that its nodes used read empty
(R272); until then the code waits with the packet. -/
def State.endInvoke (s : State) (x : Inst) (c : Nat) : State :=
  if s.pathsEmpty x.sites then s.completePacket x.part x.queue x.seq c
  else s.modQueue x.part x.queue (fun d => { d with pkts := d.pkts.map (fun k => if k.seq = x.seq then { k with ending := some (c, x.sites) } else k) })

/-- A graph instance ends: its node entries are freed, its RCB ends, its slot is settled, and its INVOKE completes with a code, or, when
the partition is killed, with none. -/
def State.endInstance (s : State) (i : Nat) (code : Option Nat) (st : BitVec 2) : State :=
  let x := s.inst i
  let t := { s with
    nodes := s.nodes.filter (fun p => !x.nodes.contains p.1)
    ready := s.ready.filter (fun r => !x.nodes.contains r.node)
    insts := s.insts.erase i }
  let t := (t.endRcb i st).settleSlot x.part x.slot
  match code with
  | some c => t.endInvoke x c
  | none => t

/-- ABORT_GRAPH on a graph instance (R65): every node not yet RETIRED is aborted, and its INVOKE completes with a code or none. -/
def State.abortGraph (s : State) (i : Nat) (code : Option Nat) : State :=
  let x := s.inst i
  let t := (x.nodes.filter (fun k => (s.node k).st != .retired && (s.node k).st != .aborted)).foldl (fun u k => u.abortNode k) s
  t.endInstance i code 3

end Sys2Proof.Machine
end

