-- ==== Sys2Proof/Machine/Str.lean ====
section
/-! DEFINITION. The stream loader (R74, R244-R246). -/

namespace Sys2Proof.Machine

/-- SOPEN's check (R245): A[63:48] first, then H for right R, generation, holder and the HANDED state. -/
def checkSopen (s : State) : Check :=
  let a := s.turn.ops.a
  let h := s.turn.ops.h
  if fld a 48 16 ≠ 0 then s.faultHere cCAP_BOUNDS a h
  else
    match s.capBase (siteOf s.turn.core) (s.rcbOf s.tctx.crew) (some s.tctx.nodeId.toNat) h with
    | some code => s.faultHere code a h
    | none => if hasRight h .r then .ok else s.faultHere cCAP_RIGHTS a h

/-- SOPEN (R245), in clock t + 1. -/
def execSopen (s : State) : Host.Outcome State Fault Refusal :=
  guarded checkSopen (fun t =>
    let o := t.turn.ops
    t.modCtx t.turn.core (fun x =>
      let y := x.closeStream
      { y with stream :=
          { y.stream with
            hasDesc := true, h := o.h, base := fld o.a 0 48, stride := BitVec.ofNat 32 (fld o.b 0 32),
            pitch := BitVec.ofNat 32 (fld o.b 32 32), count := fld o.c 0 32, inner := fld o.c 32 16,
            esize := BitVec.ofNat 2 (fld o.f 0 2), sx := bitAt o.f.toNat 2 } })) s

/-- SSTART (R245), in clock t + 1: a stream of no entries is DONE at once. -/
def execSstart (s : State) : Host.Outcome State Fault Refusal :=
  .next (s.modCtx s.turn.core (fun x =>
    if x.stream.st = .closed ∧ x.stream.hasDesc then
      { x with stream := { x.stream with st := if x.stream.count = 0 then .done else .running } }
    else x))

/-- SPOP's check (R246): the recorded fault of a stopped stream when its position is asked for, and POISON for an entry that
landed poisoned. -/
def checkSpop (s : State) : Check :=
  let st := s.tctx.stream
  let q := BitVec.ofNat 64 st.q
  match st.fault with
  | some f => if f.2 = st.q ∧ st.st = .stopped then s.faultHere f.1 q st.h else
      (match st.queue with
       | .poisoned :: _ => s.faultHere cPOISON q st.h
       | _ => .ok)
  | none =>
    match st.queue with
    | .poisoned :: _ => s.faultHere cPOISON q st.h
    | _ => .ok

/-- SPOP (R246): it acts in clock t + 1 and writes D and F in clock t + 2. -/
def execSpop (s : State) : Host.Outcome State Fault Refusal :=
  guarded checkSpop (fun t =>
    let st := t.tctx.stream
    match st.queue with
    | .landed v :: rest =>
      (t.emit .str 2 [(0, .s (loadValue (2 ^ st.esize.toNat) st.sx v.toNat)), (1, .s 1)]).modCtx t.turn.core (fun x =>
        { x with stream := { x.stream with queue := rest, q := x.stream.q + 1 } })
    | _ => t.emit .str 2 [(0, .s 0), (1, .s 0)]) s

/-- The landed entries from Q onward without a gap. -/
def readyCount : List StreamEnt → Nat
  | .landed _ :: r => 1 + readyCount r
  | .poisoned :: r => 1 + readyCount r
  | _ => 0

/-- SSTAT's word (R246). -/
def Stream.status (st : Stream) : Word :=
  BitVec.ofNat 64 (readyCount st.queue + b2n (st.st == .running) * 2 ^ 7 + b2n (st.st == .done) * 2 ^ 8
    + b2n (st.st == .stopped) * 2 ^ 9 + b2n (st.st != .closed) * 2 ^ 10 + st.q % 2 ^ 32 * 2 ^ 32)

/-- SSTAT (R245, R246). -/
def execSstat (s : State) : Host.Outcome State Fault Refusal :=
  .next (s.emit .str 2 [(0, .s s.tctx.stream.status)])

/-- SCLOSE (R245), in clock t + 1. -/
def execSclose (s : State) : Host.Outcome State Fault Refusal :=
  .next (s.modCtx s.turn.core Ctx.closeStream)

/-- The byte offset of entry i (R245), exactly. -/
def Stream.offset (st : Stream) (i : Nat) : Int :=
  let inner := if st.inner = 0 then i else i % st.inner
  let outer := if st.inner = 0 then 0 else i / st.inner
  (st.base : Int) + (inner : Int) * st.stride.toInt + (outer : Int) * st.pitch.toInt

/-- STREAM_GENERATE (R74, R244): the stream of the turn's core generates its next entry, or stops where its check fails. Under a cut it
generates none. -/
def execStreamGenerate (s : State) : Host.Outcome State Fault Refusal :=
  let n := s.turn.core
  let c := s.core n
  let x := c.ctx
  let st := x.stream
  if st.st ≠ .running ∨ st.g - st.q ≥ 64 ∨ s.underCut x.crew then .next s
  else if st.g ≥ st.count then .next (s.modCtx n (fun x => { x with stream := { x.stream with st := .done } }))
  else
    let size := 2 ^ st.esize.toNat
    let off := st.offset st.g
    match s.capCheck (siteOf n) (s.rcbOf x.crew) (some x.nodeId.toNat) st.h off size .r with
    | some code =>
      .next (s.modCtx n (fun x => { x with stream := { x.stream with st := .stopped, fault := some (code, st.g) } }))
    | none =>
      let addr := hAddr st.h off.toNat
      let now := s.cycle (siteOf n)
      let l : GLoad :=
        { seq := x.seq + 1, dst := .stream st.g st.epoch, h := st.h, off := off.toNat, addr := addr, size := size,
          deadline := now, notBefore := now + 1, todo := granules addr size, arrived := [], got := [], poison := false,
          fwd := c.pendingIn addr size, counted := false, cached := false }
      .next (s.modCtx n (fun x =>
        { x.nextSeq with
          loads := x.loads ++ [l]
          stream := { x.stream with g := st.g + 1, queue := x.stream.queue ++ [.flying],
                                    st := if st.g + 1 = st.count then .done else .running } }))

/-- STREAM_ENTRY_LAND (R244): a stream fetch of the turn's core, numbered by the turn's item, lands in the queue. -/
def execStreamEntryLand (s : State) : Host.Outcome State Fault Refusal :=
  let n := s.turn.core
  match (s.core n).ctx.loads.find? (fun l => l.seq == s.turn.item) with
  | some l =>
    if l.ready (s.cycle (siteOf n)) then .next (s.modCtx n (fun x => x.landLoad l)) else .next s
  | none => .next s

end Sys2Proof.Machine
end

