-- ==== Sys2Proof/Machine/Move.lean ====
section
/-! DEFINITION. MOVE: what a bundle does when it reaches issue (R60, R71, R109, R112, R120), and the ends of the holds of ALLOC and of
the waits (R259, R368). -/

namespace Sys2Proof.Machine

/-! ## The checks of triggered operations -/

/-- The operation a trigger starts: LAC's XMOV goes by LOAD in port X (R211). -/
def trigInstr (t : BTrig) (o : Operands) : Option Instr :=
  match opOf t.fu t.opc.toNat with
  | some .xmov => some (if bitAt o.x.toNat 6 then .xmovLoad else .xmov)
  | r => r

/-- The check that a triggered operation makes in its bundle: what its description lists as raised there. Every operation not named
raises nothing. -/
def checkOp (i : Instr) : State → Check :=
  match i with
  | .trap => checkTrap
  | .ldb => checkLsu 1 true
  | .ldbu => checkLsu 1 true
  | .ldh => checkLsu 2 true
  | .ldhu => checkLsu 2 true
  | .ldw => checkLsu 4 true
  | .ldwu => checkLsu 4 true
  | .ldd => checkLsu 8 true
  | .stb => checkLsu 1 false
  | .sth => checkLsu 2 false
  | .stw => checkLsu 4 false
  | .std => checkLsu 8 false
  | .gldb => fun t => t.globalCheck 1 .r
  | .gldh => fun t => t.globalCheck 2 .r
  | .gldw => fun t => t.globalCheck 4 .r
  | .gldd => fun t => t.globalCheck 8 .r
  | .gstb => fun t => t.globalCheck 1 .w
  | .gsth => fun t => t.globalCheck 2 .w
  | .gstw => fun t => t.globalCheck 4 .w
  | .gstd => fun t => t.globalCheck 8 .w
  | .acq => checkAcq
  | .tacq => checkAcq
  | .waitv => checkWaitv
  | .fladd => checkFladd
  | .flset => checkFlag
  | .flrd => checkFlag
  | .sigrd => checkSignal
  | .sigwt => checkSigwt
  | .push => checkPush false
  | .pusht => checkPush true
  | .updOpen => checkUpdOpen
  | .emit => fun t => checkPairs t (emitPairs t)
  | .emitv => checkEmitv
  | .free => checkBase
  | .retain => checkRetain
  | .hand => checkHand
  | .hinfo => checkBase
  | .hld => checkHld
  | .tret => checkTret
  | .sopen => checkSopen
  | .spop => checkSpop
  | .vadd _ => shapeCheck okFp
  | .vsub _ => shapeCheck okFp
  | .vmul _ => shapeCheck okFp
  | .vfma _ => shapeCheck okFp
  | .vfms _ => shapeCheck okFp
  | .vfnma _ => shapeCheck okFp
  | .vfmac _ => shapeCheck okFp
  | .vmin _ => shapeCheck okFp
  | .vmax _ => shapeCheck okFp
  | .vabs _ => shapeCheck okFp
  | .vneg _ => shapeCheck okFp
  | .vcmp _ => shapeCheck okFp
  | .vsel _ => shapeCheck okAny
  | .vcvt _ => shapeCheck okCvt
  | .vrnd _ => shapeCheck okFp
  | .viadd _ => shapeCheck okInt
  | .visub _ => shapeCheck okInt
  | .vimul _ => shapeCheck okInt
  | .vimulh _ => shapeCheck okInt
  | .vimad _ => shapeCheck okInt
  | .vimin _ => shapeCheck okInt
  | .vimax _ => shapeCheck okInt
  | .viabs _ => shapeCheck okInt
  | .vicmp _ => shapeCheck okInt
  | .vand _ => shapeCheck okAny
  | .vor _ => shapeCheck okAny
  | .vxor _ => shapeCheck okAny
  | .vshl _ => shapeCheck okInt
  | .vshr _ => shapeCheck okInt
  | .vsra _ => shapeCheck okInt
  | .vrot _ => shapeCheck okInt
  | .vdot4 _ => shapeCheck okDot4
  | .vdotb _ => shapeCheck okDotb
  | .rowget => shapeCheck okMove
  | .rowput => shapeCheck okMove
  | .colget => shapeCheck okMove
  | .colput => shapeCheck okMove
  | .vtrn => shapeCheck okTrn
  | .vperm => shapeCheck okPerm
  | .vbcast => shapeCheck okMove
  | .vred => shapeCheck okRed
  | .vscan => shapeCheck okRed
  | .vcomp => shapeCheck okMove
  | .vexp => shapeCheck okMove
  | .vextr => shapeCheck okMove
  | .vins => shapeCheck okMove
  | .viota => shapeCheck okInt
  | .vmpop => shapeCheck okAny
  | .vshp => shapeCheck okShp
  | .vgthl => checkGather true
  | .vsctl => checkGather false
  | .vld => checkVld
  | .vst => checkVst
  | .vlds => checkLong false .vlsLoad
  | .vsts => checkLong false .vlsStore
  | .vld2d => checkLong true .vlsLoad
  | .vst2d => checkLong true .vlsStore
  | .vgld => fun t => t.globalCheck 1024 .r
  | .vgst => checkVgst
  | .rsqe => shapeCheck okSfn
  | .rcpe => shapeCheck okSfn
  | .exp2e => shapeCheck okSfn
  | .log2e => shapeCheck okSfn
  | .sqrt => shapeCheck okSfn
  | .xadd => shapeCheck (okLac true)
  | .xadd2 => shapeCheck (okLac true)
  | .xadd3 => shapeCheck (okLac true)
  | .xdot => shapeCheck (okLac false)
  | .xrnd => shapeCheck (okLac true)
  | _ => fun _ => .ok

/-- What an operation adds to LDC, STC, CPC, TLC and UPC in its bundle (R366). -/
def countsOf (i : Instr) (s : State) : List Nat :=
  let push : Bits256 → List Nat := fun w =>
    [b2n (isRetAtom w), 0, b2n (opcOf w / 32 == 0), b2n (opcOf w / 32 != 0), 0]
  match i with
  | .gldb => [1, 0, 0, 0, 0]
  | .gldh => [1, 0, 0, 0, 0]
  | .gldw => [1, 0, 0, 0, 0]
  | .gldd => [1, 0, 0, 0, 0]
  | .vgld => [1, 0, 0, 0, 0]
  | .sigrd => [1, 0, 0, 0, 0]
  | .gstb => [0, 1, 0, 0, 0]
  | .gsth => [0, 1, 0, 0, 0]
  | .gstw => [0, 1, 0, 0, 0]
  | .gstd => [0, 1, 0, 0, 0]
  | .vgst => [0, b2n (!(storeBytes s.turn.ops).isEmpty), 0, 0, 0]
  | .push => push (pushWord false s.turn.ops)
  | .pusht => push (pushWord true s.turn.ops)
  | .emit => [0, 0, 0, 0, (emitPairs s).length]
  | .emitv => [0, 0, 0, 0, (emitvPairs s).length]
  | _ => [0, 0, 0, 0, 0]

/-! ## Reading a bundle's moves -/

/-- The moves of a bundle whose guards hold, with their slots (R110, R112). -/
def liveMoves (x : Ctx) (b : Bundle) : List (Nat × Move) :=
  ((List.range 8).zip (bundleSlots b)).filterMap (fun p =>
    match p.2 with
    | some m => if x.guardOn m.guard then some (p.1, m) else none
    | none => none)

/-- A live move with what its source gave. -/
structure Read where
  slot : Nat
  dst : Dst
  val : Fetch
  deriving DecidableEq, Repr

/-- The live moves of a bundle, their sources read as they stand before it (R112). DEDUCED (log 18). -/
def State.readMoves (s : State) (n : Nat) (b : Bundle) : List Read :=
  (liveMoves (s.core n).ctx b).map (fun p => { slot := p.1, dst := p.2.dst, val := s.fetch n b p.2.dst p.2.src })

/-- The first move that reads a PENDING slot: its move slot and its sill slot (R226). -/
def firstPending : List Read → Option (Nat × Nat)
  | [] => none
  | r :: rs =>
    match r.val with
    | .wait k => some (r.slot, k)
    | _ => firstPending rs

/-- The fault of a move by itself: of its source (R225, R279) or of a vector register it writes (R175). Where both vector registers are not
configured the source's is named. DEDUCED (log 86). -/
def Read.fault (x : Ctx) (bidx : Word) (r : Read) : Option FaultInfo :=
  match r.val with
  | .bad code detail h => some (strandFault code r.slot bidx detail h)
  | _ =>
    match r.dst with
    | .vrf k => if x.vregOk k.toNat then none else some (strandFault cUNCONF_VREG r.slot bidx (k.setWidth 64) 0)
    | _ => none

/-- The write of a move: the vector register a name resolves to before the bundle (R175). A move that faults writes nothing.
DEDUCED (log 18). -/
def Read.write (x : Ctx) (bidx : Word) (r : Read) : Option BWrite :=
  match r.fault x bidx, r.val with
  | none, .got v => some { dst := r.dst, phys := (match r.dst with | .vrf k => x.physReg k.toNat | _ => 0), val := v }
  | _, _ => none

/-- The trigger of a move. -/
def Read.trigger (r : Read) : Option BTrig :=
  match r.dst with
  | .trig fu opc => some { slot := r.slot, fu := fu, opc := opc }
  | _ => none

/-- The turn of a triggered operation: its ports as the bundle leaves them (R112 step 4). -/
def trigTurn (n : Nat) (x : Ctx) (bidx : Word) (checked : Bool) (t : BTrig) : Turn :=
  { Turn.zero with core := n, crew := x.crew, site := siteOf n, part := x.part, slot := t.slot, bidx := bidx,
                   ops := x.operands t.fu, checked := checked }

/-- The check of a trigger, on the state with the bundle's writes made; x is the context that holds them. -/
def State.trigCheck (s : State) (n : Nat) (x : Ctx) (bidx : Word) (t : BTrig) : Check :=
  match trigInstr t (x.operands t.fu) with
  | some i => checkOp i { s with turn := trigTurn n x bidx false t }
  | none => .ok

/-- What a trigger adds to the five counters. -/
def State.trigCounts (s : State) (n : Nat) (x : Ctx) (bidx : Word) (t : BTrig) : List Nat :=
  match trigInstr t (x.operands t.fu) with
  | some i => countsOf i { s with turn := trigTurn n x bidx false t }
  | none => [0, 0, 0, 0, 0]

/-- What each live move of a bundle finds, in slot order: its own fault, or the check of the operation it triggers.
DEDUCED (log 18). -/
def State.findings (s : State) (n : Nat) (old new : Ctx) (bidx : Word) (rs : List Read) : List Check :=
  rs.map (fun r =>
    match r.fault old bidx with
    | some f => .fault f
    | none =>
      match r.trigger with
      | some t => s.trigCheck n new bidx t
      | none => .ok)

/-- The faults of a list of findings, in order. -/
def faultsOf : List Check → List FaultInfo
  | [] => []
  | .fault f :: cs => f :: faultsOf cs
  | _ :: cs => faultsOf cs

/-- The first trap of a list of findings. -/
def firstTrap : List Check → Option TrapInfo
  | [] => none
  | .trap t :: _ => some t
  | _ :: cs => firstTrap cs

/-- Whether a finding freezes the core. -/
def anyFreeze : List Check → Bool
  | [] => false
  | .freeze _ :: _ => true
  | _ :: cs => anyFreeze cs

/-- Whether the five counters of a context can take what a bundle adds (R366). -/
def Ctx.countersHold (x : Ctx) (add : List (List Nat)) : Bool :=
  ([x.ldc, x.stc, x.cpc, x.tlc, x.upc].zipIdx).all (fun p =>
    decide (p.1.toNat + (add.map (fun l => l.getD p.2 0)).foldl (· + ·) 0 ≤ 0xFFFF))

/-! ## Taking an ARITH trap, freezing -/

/-- The ARITH trap that waits on a core taken at this bundle boundary (R58, R179). DEDUCED (log 60). One that the drain of a TRET raises waits
for the boundary after the return, and one that the drain of a trap entry raises for the handler's first boundary, where it is
DOUBLE_TRAP. DESIGN CHOICE (log 76). -/
def State.takeArith (s : State) (n : Nat) (a : Arith) : State :=
  let x := (s.core n).ctx
  let t : TrapInfo :=
    { cause := cARITH, fu := a.fu, info0 := a.bidx, info1 := a.raised.setWidth 64, info2 := BitVec.ofNat 64 a.lowest,
      ret := x.pc.setWidth 13 }
  match x.trapOr t a.slot a.bidx with
  | .fault f => s.stopIssue n (.fault f)
  | _ => s.stopIssue n (.trap t)

/-- The core frozen in this clock (R226). DEDUCED (log 22). -/
def State.freezeCore (s : State) (n : Nat) : State := s.modCore n (fun c => { c with frozen := true })

/-- A freeze on a landing slot: it lasts until the slot lands, and after 200,000 ticks MEM_TIMEOUT ends it (R49, R226).
DEDUCED (log 22). -/
def State.freezeOnSlot (s : State) (n slot sill : Nat) : State :=
  match (s.core n).ctx.arith with
  | some a => s.takeArith n a
  | none =>
    let start := match (s.core n).freeze with
      | some f => f.1
      | none => s.tick
    let t := s.modCore n (fun c => { c with freeze := some (start, sill) })
    if start + 200000 ≤ s.tick then t.front [.run { s.turn with core := n, slot := slot } .memTimeout] else t.freezeCore n

/-! ## The effect of a bundle -/

/-- When a triggered operation acts, in the order of one clock: the stores of LSU, then those of VLS, then the others (R219); or in a
later clock, or late in this one (R154, R207, R245, R260, R371, R372). -/
inductive ActTime where
  | now (rank : Nat)
  | later (clocks : Nat)
  | late
  deriving DecidableEq, Repr

/-- When an operation of a unit acts. -/
def actTime (t : BTrig) : ActTime :=
  let k := t.opc.toNat
  match t.fu with
  | .lsu => if 0x08 ≤ k ∧ k ≤ 0x0B then .now 0 else .now 2
  | .vls => if k = 1 then .now 1 else .now 2
  | .lac => .late
  | .str => .late
  | .sys => if k ≤ 3 then .later 2 else if 0x09 ≤ k ∧ k ≤ 0x0C then .late else if k = 0x18 then .later 1 else .now 2
  | .syn => if k = 0x0B ∨ (0x10 ≤ k ∧ k ≤ 0x12) then .later 1 else .now 2
  | _ => .now 2

/-- The tasks of the triggers that act in this clock at one place of its order. -/
def trigTasks (n : Nat) (x : Ctx) (bidx : Word) (rank : Nat) (ts : List BTrig) : List Task :=
  (ts.filter (fun t => actTime t == .now rank)).filterMap (fun t =>
    (trigInstr t (x.operands t.fu)).map (fun i => .run (trigTurn n x bidx true t) i))

/-- The triggers that act later, as the core keeps them; seq is the operation number before the bundle. -/
def deferTrigs (age : Nat) (x : Ctx) (bidx : Word) (ts : List BTrig) : List Deferred :=
  ts.filterMap (fun t =>
    match actTime t with
    | .now _ => none
    | .later k => some { due := age + k, late := false, slot := t.slot, fu := t.fu, opc := t.opc, bidx := bidx,
                         ops := x.operands t.fu, born := x.seq }
    | .late => some { due := age, late := true, slot := t.slot, fu := t.fu, opc := t.opc, bidx := bidx,
                      ops := x.operands t.fu, born := x.seq })

/-- The units whose port C a bundle writes (R187). -/
def writesC : List BWrite → List FU
  | [] => []
  | w :: ws =>
    match w.dst with
    | .port fu 2 => fu :: writesC ws
    | _ => writesC ws

/-- A long operation in a clock in which it advances (R183). -/
def LongOp.advance (l : LongOp) : LongOp := if l.parked then l else { l with adv := min (l.adv + 1) l.need }

/-- The long operations of a context in a clock in which they advance. -/
def Ctx.advanceLongs (x : Ctx) : Ctx :=
  { x with vxuLong := x.vxuLong.map LongOp.advance, vlsLong := x.vlsLong.map LongOp.advance }

/-- The task in which the long stores of a core that are due are made. -/
def longStoreTask (n : Nat) (x : Ctx) : List Task :=
  let due : Option LongOp → Bool := fun o => match o with
    | some l => l.due && !l.parked && !l.isLoad
    | none => false
  if due x.vlsLong || due x.vxuLong then [.run { Turn.zero with core := n, crew := x.crew } .longOpComplete] else []

/-- Whether a held bundle stores to scratch when it takes effect. -/
def Hold.stores (h : Hold) : Bool := h.trigs.any (fun t => (t.fu == .lsu || t.fu == .vls) && (actTime t == .now 0 || actTime t == .now 1))

/-- The bundle's writes made and the pc moved on, with the loop-end step after them (R109, R112). -/
def Ctx.afterBundle (x : Ctx) (loopEnd : Bool) (bidx : Word) (ws : List BWrite) : Ctx :=
  let y := { x.writes ws with pc := bidx + 1 }
  if loopEnd then y.loopEnd bidx else y

/-- A bundle takes effect: its writes together, then the operations it triggers, their ports as the writes left them (R112). The
loop-end step comes after the writes, and no move of its bundle triggers BRU. advance says that the long operations advance in this
clock by the bundle's issue (R183). -/
def State.takeBundle (s : State) (n : Nat) (loopEnd : Bool) (bidx : Word) (ws : List BWrite) (ts : List BTrig)
    (advance : Bool) : State :=
  let c := s.core n
  let w := c.ctx.writes ws
  let y := c.ctx.afterBundle loopEnd bidx ws
  let z := if advance then y.advanceLongs else y
  let t := s.setCore n
    { c with ctx := z, busy := true, freeze := none, movedC := writesC ws, deferred := c.deferred ++ deferTrigs c.age w bidx ts }
  t.front (trigTasks n w bidx 0 ts ++ trigTasks n w bidx 1 ts ++ longStoreTask n z ++ trigTasks n w bidx 2 ts)

/-- Whether a trigger holds its bundle in issue: ALLOC, WAITV, WAITC and WAITT (R259, R368). -/
def holdsIssue (t : BTrig) : Bool :=
  match t.fu with
  | .sys => t.opc == 0x08
  | .syn => t.opc == 0x08 || t.opc == 0x09 || t.opc == 0x0A
  | _ => false

/-- Whether a trigger makes a global access through the handle of its own port: a load or store of LSU, one of VLS, SIGRD or SIGWT (R237,
R238, R243, R375). -/
def isGlobal (t : BTrig) : Bool :=
  match trigInstr t Operands.zero with
  | some .sigrd => true
  | some .sigwt => true
  | some .gldb => true
  | some .gldh => true
  | some .gldw => true
  | some .gldd => true
  | some .gstb => true
  | some .gsth => true
  | some .gstw => true
  | some .gstd => true
  | some .vgld => true
  | some .vgst => true
  | _ => false

/-- Whether a trigger emits update pairs through the stream's attached handle. -/
def isEmit (t : BTrig) : Bool :=
  match trigInstr t Operands.zero with
  | some .emit => true
  | some .emitv => true
  | _ => false

/-- The buffers that the checked global accesses of a bundle reach. -/
def Ctx.accessBids (w : Ctx) (ts : List BTrig) : List Nat :=
  (ts.filter isGlobal).map (fun t => hBid (w.operands t.fu).h) ++
    (if ts.any isEmit then (w.upd.att.map (fun a => hBid a.1)).toList else [])

/-- A bundle that holds: its writes and its other triggers wait for the end of the hold, an ALLOC counts 96 clocks, and a wait begins
with its ports as the bundle leaves them. -/
def State.holdBundle (s : State) (n : Nat) (b : Bundle) (bidx : Word) (ws : List BWrite) (ts : List BTrig) : State :=
  let c := s.core n
  let w := c.ctx.writes ws
  let o := w.operands .sys
  let alloc := (ts.find? (fun t => t.fu == .sys && holdsIssue t)).map (fun t =>
    ({ left := 96, slot := t.slot, a := o.a, b := o.b, res := none } : AllocHold))
  let h : Hold := { bundle := b, bidx := bidx, born := s.now, writes := ws, trigs := ts.filter (fun t => !holdsIssue t),
                    alloc := alloc, wait := none,
                    bids := w.accessBids ts }
  let t := s.setCore n
    { c with mode := .hold, hold := some h, busy := true, freeze := none, movedC := [], ctx := c.ctx.advanceLongs }
  t.front (longStoreTask n c.ctx.advanceLongs
    ++ trigTasks n w bidx 2 (ts.filter (fun t => t.fu == .syn && holdsIssue t)))

/-- The ends of a bundle that reaches issue with all its slots landed, in this order: a fault of any of its moves (R60, R71), a
pending ARITH (R58), a freeze (R49), a MISALIGN trap (R58), and its effect. -/
def State.issueBundle (s : State) (n : Nat) (b : Bundle) (bidx : Word) (rs : List Read) : State :=
  let x := (s.core n).ctx
  let ws := rs.filterMap (Read.write x bidx)
  let ts := rs.filterMap Read.trigger
  let w := x.writes ws
  let pre := s.modCtx n (fun _ => w)
  let finds := pre.findings n x w bidx rs
  let adds := ts.map (pre.trigCounts n w bidx)
  match faultsOf finds with
  | f :: more => s.stopIssue n (.fault { f with more := !more.isEmpty })
  | [] =>
    match x.arith with
    | some a => s.takeArith n a
    | none =>
      if anyFreeze finds || !x.countersHold adds then (s.modCore n (fun c => { c with freeze := none })).freezeCore n
      else
        match firstTrap finds with
        | some t => s.stopIssue n (.trap t)
        | none =>
          if ts.any holdsIssue then s.holdBundle n b bidx ws ts
          else s.takeBundle n b.loopEnd bidx ws ts true

/-- MOVE (R112): the bundle of the turn's core reaches issue. -/
def execMove (b : Bundle) (s : State) : Host.Outcome State Fault Refusal :=
  let n := s.turn.core
  let rs := s.readMoves n b
  match firstPending rs with
  | some p => .next (s.freezeOnSlot n p.1 p.2)
  | none => .next (s.issueBundle n b s.turn.bidx rs)

/-! ## The ends of holds -/

/-- The held bundle of a core takes effect and its hold is over; the core issues again when next says so. DEDUCED (log 25). -/
def State.endHold (s : State) (n : Nat) (h : Hold) (m : Mode) : State :=
  (s.modCore n (fun c => { c with mode := m, hold := none })).takeBundle n h.bundle.loopEnd h.bidx h.writes h.trigs false

/-- ALLOC_HOLD_END (R259): at the end of clock t + 96 the bundle's moves take effect with H, F and D, or, on a faulting refusal, none
does. -/
def execAllocHoldEnd (s : State) : Host.Outcome State Fault Refusal :=
  let n := s.turn.core
  match (s.core n).hold with
  | none => .next s
  | some h =>
    match h.alloc with
    | none => .next s
    | some a =>
      match a.left, a.res with
      | 0, some none => .next (s.stopIssue n (.fault (strandFault cALLOC_EXHAUSTED a.slot h.bidx a.a 0)))
      | 0, some (some r) =>
        let push : Ctx → Ctx := fun x => x.pushResults .sys [(2, .k r.1), (1, .s r.2.1), (0, .s r.2.2)]
        if h.wait.isSome then
          .next (s.modCore n (fun c => { c with hold := some { h with alloc := none }, ctx := push c.ctx }))
        else .next ((s.endHold n h .run).modCtx n push)
      | _, _ => .next s

/-- A wait that ends: its bundle's moves take effect in this clock, and D and F enter their windows in the next (R368). -/
def State.endWait (s : State) (n : Nat) (h : Hold) (w : Wait) (d f : Word) : State :=
  let turn := s.turn
  let t := s.endHold n h .hold
  let u := { t with turn := { turn with core := n, slot := w.slot, bidx := h.bidx } }
  { u.emit .syn 1 [(0, .s d), (1, .s f)] with turn := turn }

/-- The wait of a core that has its ALLOC, if it has one, behind it and whose issue clock is past. -/
def State.openWait (s : State) (n : Nat) : Option (Hold × Wait) :=
  match (s.core n).hold with
  | some h =>
    (match h.alloc, h.wait with
     | none, some w => if h.born < s.now then some (h, w) else none
     | _, _ => none)
  | none => none

/-- WAIT_END (R368-R370): the wait of the turn's core whose condition holds ends. -/
def execWaitEnd (s : State) : Host.Outcome State Fault Refusal :=
  let n := s.turn.core
  match s.openWait n with
  | none => .next s
  | some (h, w) =>
    let r := s.waitCond n w
    if r.1 then .next (s.endWait n h w r.2 1) else .next s

/-- TOEN of VCTL (R57, R178). -/
def Ctx.toen (x : Ctx) : Bool := x.vctl.getLsbD 14

/-- WAIT_TIMEOUT (R56, R57, R368): the wait of the turn's core ends with F 0 and TOUT set; with TOEN it then traps, and where that
trap is a fault the bundle has no effect (R54, R60). Of a WAIT_TIMEOUT and a trap that the bundle's own BRU.TRAP raises the spec
names none: the later stop of the held bundle stands. DESIGN CHOICE (log 75). -/
def execWaitTimeout (s : State) : Host.Outcome State Fault Refusal :=
  let n := s.turn.core
  match s.openWait n with
  | none => .next s
  | some (h, w) =>
    if !s.waitExpired w then .next s
    else
      let x := (s.core n).ctx
      let t : TrapInfo :=
        { cause := cWAIT_TIMEOUT, fu := FU.syn.id, info0 := h.bidx, info1 := w.condWord, info2 := BitVec.ofNat 64 w.timeout,
          ret := (h.bidx + 1).setWidth 13 }
      let ended := (s.endWait n h w (s.waitCond n w).2 0).modCtx n (fun y => { y with tout := true })
      if x.toen then
        match x.trapOr t w.slot h.bidx with
        | .fault f => .next (s.stopIssue n (.fault f))
        | _ => .next (ended.stopIssue n (.trap t))
      else .next ended

end Sys2Proof.Machine
end

