-- ==== Sys2Proof/Machine/Stops.lean ====
section
/-! DEFINITION. What stops a strand: TRAP_ENTRY and the return from a trap (R58, R59), FAULT (R60-R64), and pre-emption by slices and
cuts (R28, R66-R71). -/

namespace Sys2Proof.Machine

/-! ## Trap entry and return -/

/-- The mode in which a stopped strand goes on: a NOPW pause that was cut short counts on (R165). -/
def Ctx.resumeMode (x : Ctx) : Mode := if x.nopw = 0 then .run else .pause

/-- TRAP_ENTRY (R58 steps 5-7): the turn's core has drained and saved for a trap; the trap registers are written and the handler's
first bundle issues next. The bundle after a wait that timed out is the one at pc. -/
def execTrapEntry (s : State) : Host.Outcome State Fault Refusal :=
  .next (s.modCore s.turn.core (fun c =>
    match c.mode with
    | .save 0 (.trap t) =>
      { c with
        mode := .run
        ctx := c.ctx.enterTrap (if t.cause = cWAIT_TIMEOUT then { t with ret := c.ctx.pc.setWidth 13 } else t) }
    | _ => c))

/-- The end of TRET (R59 steps 3-5). A trap slot that fails its check is not restored, and POISON follows at the first bundle that would
issue (R224). -/
def State.finishTret (s : State) (n : Nat) : State :=
  s.modCore n (fun c =>
    match c.mode with
    | .save 0 .tret =>
      if c.ctx.trapSlot.any (fun t => t.poisoned) then
        { c with mode := .run, badRestore := true, ctx := { c.ctx with pc := c.ctx.tret.setWidth 64 } }
      else
        let x := (c.ctx.returnTrap).unparkLongs true
        { c with mode := x.resumeMode, ctx := x }
    | _ => c)

/-- Whether a load is one that trap entry waits for: GLD, VGLD or SIGRD (R58 step 4). -/
def GLoad.awaited (l : GLoad) : Bool :=
  match l.dst with
  | .scalar _ _ => true
  | .vector _ => true
  | _ => false

/-- Whether the fixed-latency operations of a core have drained (R58 step 3). -/
def State.fixedDrained (s : State) (n : Nat) : Bool :=
  let c := s.core n
  c.inflight.isEmpty && c.deferred.isEmpty &&
    !(s.ssmGroups.any (fun g => g.2.core == n && g.2.crew == c.ctx.crew && !g.2.long))

/-- A core that has drained (R58, R59, R61, R66): what its stop comes to next. DEDUCED (log 20). -/
def State.afterDrain (s : State) (n : Nat) (w : Stop) : State :=
  match w with
  | .trap t => s.modCore n (fun c => { c with mode := .save 48 (.trap t), freeze := none })
  | .tret => s.modCore n (fun c => { c with mode := .save 48 .tret, freeze := none })
  | .fault f =>
    (s.modCore n (fun c => { c with freeze := none })).front
      [.run { Turn.zero with core := n, crew := (s.core n).ctx.crew, fault := some f } .fault]
  | .freeze => s.modCore n (fun c => { c with mode := .stopped, freeze := none })
  | .cut => s.modCore n (fun c => { c with mode := .stopped, freeze := none })

/-! ## Faults (R61-R64) -/

/-- A core asked to stop at its next bundle boundary. -/
def Core.askStop (c : Core) (w : Stop) : Core :=
  match c.mode with
  | .idle => c
  | .stopped => c
  | .halted => c
  | .drain .freeze => c
  | .drain .cut => c
  | .drain (.fault _) => c
  | _ => { c with stopReq := some w }

/-- Every other strand of a crew is asked to stop (R61 step 2). -/
def State.freezeCrew (s : State) (k : Nat) : State :=
  (s.crew k).cores.foldl (fun t n => t.modCore n (fun c => if c.mode ≠ .idle ∧ c.ctx.crew = k then c.askStop .freeze else c)) s

/-- The graph instances of a job. -/
def State.instsOfJob (s : State) (job : Nat) : List Nat :=
  (s.insts.filter (fun p => (s.rcb p.1).parent.toNat == job)).map (fun p => p.1)

/-- The effective policy of a fault domain applied to a graph instance (R26, R64). -/
def State.applyPolicy (s : State) (dom i : Nat) : State :=
  if (s.insts.find i).isNone then s
  else
    let d := s.rcb dom
    match d.policy.toNat with
    | 0 => s
    | 1 => s.abortGraph i (some 3)
    | _ =>
      if d.level = 1 then s.abortGraph i (some 3)
      else (s.instsOfJob (s.rcb i).parent.toNat).foldl (fun t j => t.abortGraph j (some 3)) s

/-- A crew FAULTED, with the stage it was in. -/
def Crew.faulted (c : Crew) : Crew := if c.st = .faulted then c else { c with st := .faulted, before := c.st }

/-- A node FAULTED, with the state it was in and its first fault. -/
def Node.faulted (n : Node) (f : FaultInfo) (core : Nat) : Node :=
  if n.st = .faulted then n else { n with st := .faulted, before := n.st, fault := some f, faultCore := core }

/-- A context as the pre-emption slot holds it after a save (R61 step 1, R68): the image then holds every register below NV that it held
or that was dirty. -/
def Ctx.toSlot (x : Ctx) : Ctx :=
  { (x.parkLongs false).clean with
      vmap := (x.vmap ||| x.dirty) &&& BitVec.ofNat 128 (2 ^ x.nv - 1) }

/-- The 64-byte header of a context image (R72); queued says that engine queues hold entries of the strand. -/
def contextHeader (layout core cls : Nat) (queued : Bool) (x : Ctx) : Bits512 :=
  BitVec.ofNat 512 (packBits 64
    [ (Config.contextBytes layout x).toNat + cls % 8 * 2 ^ 29 + core % 256 * 2 ^ 32 + x.part % 256 * 2 ^ 40 + layout % 2 ^ 16 * 2 ^ 48,
      b2n x.trapSlot.isSome + b2n queued * 2, x.vmap.toNat % 2 ^ 64, x.vmap.toNat / 2 ^ 64, 0, 0, 0, 0 ])

/-- LAYOUT of the header of a context image (R72). -/
def headLayout (h : Bits512) : Nat := h.toNat / 2 ^ 48 % 2 ^ 16

/-- Whether the converters of a firmware image of one layout take a context image of another: of its own layout, and of the two before it (R73,
R417). -/
def convertsLayout (fw v : Nat) : Bool := decide (fw ≤ v + 2)

/-- The header that a context image has once the converters of the firmware that runs have brought it to their own layout (R73, R417); the
items of the context stay what they are. -/
def convertHead (fw : Nat) (h : Bits512) : Bits512 :=
  if convertsLayout fw (headLayout h) then BitVec.ofNat 512 (h.toNat - headLayout h * 2 ^ 48 + fw % 2 ^ 16 * 2 ^ 48) else h

/-- The header of the image of a strand's context, in the layout of the firmware that runs. -/
def State.imageHead (s : State) (n k : Nat) (x : Ctx) : Bits512 :=
  contextHeader s.mgmt.layout n (s.coreCls n).code (!(s.strandEntries n k).isEmpty) x

/-- Whether a gang's incoming contexts are staged in the pre-emption slots of its cores (R68). -/
def Saved.staged (g : Saved) : Bool :=
  match g.place with
  | .incoming _ => true
  | _ => false

/-- Whether a gang's contexts stand in the pre-emption slot of one of some cores. -/
def Saved.inSlots (g : Saved) (ns : List Nat) : Bool := g.place != .memory && g.ctxs.any (fun p => ns.contains p.1)

/-- The pre-emption slots of some cores emptied for other contexts: what was outgoing has been copied to memory, and what was incoming is
still there. -/
def State.clearSlots (s : State) (ns : List Nat) : State :=
  { s with saved := s.saved.map (fun (g : Saved) => if g.inSlots ns then { g with place := .memory } else g) }

/-- The faulting strand stopped by its own fault, its context in the pre-emption slot, with its header (R61 step 1, R72). A refused push
(R124) moves no context, and a fault that an engine raises meanwhile leaves the strand's own drain alone. -/
def State.stopFaulting (s : State) (n : Nat) (f : FaultInfo) : State :=
  let head := s.imageHead n (s.core n).ctx.crew (s.core n).ctx.toSlot
  (if f.src = 0 then s.clearSlots [n] else s).modCore n (fun c =>
    match c.mode with
    | .drain (.fault g) =>
      if g ≠ f then c
      else if f.src = 0 then
        { c with mode := .stopped, ctx := c.ctx.toSlot, preempt := some c.ctx.toSlot, preHead := head, preemptBad := false, stopReq := none,
                 badRestore := false, parityBad := false }
      else { c with mode := .stopped, stopReq := none }
    | _ => c)

/-- A fault of a boot-mailbox strand (R48): the strand freezes in STATE 4, with a record in the root's fault domain. -/
def State.mailboxFault (s : State) (n k : Nat) (f : FaultInfo) : State :=
  let t := (s.crew k).cores.foldl (fun u m => u.modCore m (fun c => { c with mbState := 4 })) s
  let t := (t.freezeCrew k).setCrew k (t.crew k).faulted
  t.logFault 0 0 (faultRecord f 0 k 0xFFFF n ((s.crew k).indexOf n) (s.faultTick n f) 0)

/-- A crew FAULTED and its strands stopped (R61 step 2); one that is out is FAULTED as it stands (R71). -/
def State.faultCrew (s : State) (k : Nat) : State :=
  let c := s.crew k
  if k = 0 then s
  else if c.st = .out then
    (s.saved.filter (fun (g : Saved) => g.crew == k && g.st != .faulted)).foldl (fun (t : State) (g : Saved) => t.setCrew k { c with before := g.st })
      { s with saved := s.saved.map (fun (g : Saved) => if g.crew = k then { g with st := .faulted } else g) }
  else (s.freezeCrew k).setCrew k c.faulted

/-- A fault of a node (R61 steps 2-6): crew 0 stands for a node that has none. -/
def State.nodeFault (s : State) (n k node : Nat) (f : FaultInfo) : State :=
  let i := (s.node node).rcb
  let dom := s.faultDomain i
  let t := s.faultCrew k
  let pq := t.nodeQueue node
  let t := t.modQueue pq.1 pq.2 LaunchQ.freeze
  let t := t.setNode node ((t.node node).faulted f n)
  (t.logNodeFault n k node f).applyPolicy dom i

/-- Whether a node can still fault: its entry exists and it has not ended (R342). -/
def State.nodeLives (s : State) (node : Nat) : Bool :=
  match s.nodes.find node with
  | some n => n.st != .retired && n.st != .aborted
  | none => false

/-- FAULT (R61): the fault that the turn carries is delivered, unless an abort has ended its node or crew meanwhile. One of SRC 2 names its
node by the turn's item. -/
def execFault (s : State) : Host.Outcome State Fault Refusal :=
  match s.turn.fault with
  | none => .next s
  | some f =>
    let n := s.turn.core
    let k := s.turn.crew
    if f.src = 2 then (if s.nodeLives s.turn.item then .next (s.nodeFault n k s.turn.item f) else .next s)
    else if (s.crews.find k).isNone then .next s
    else
      let t := s.stopFaulting n f
      if (s.crew k).isMailbox then .next (t.mailboxFault n k f)
      else .next (t.nodeFault n k (s.crew k).node f)

/-! ## The overlay loader (R44) -/

/-- Whether two overlays are one. -/
def Overlay.same (a b : Overlay) : Bool :=
  a.part == b.part && a.slot == b.slot && a.prog == b.prog && a.image == b.image && a.sgen == b.sgen

/-- The resident overlays without the least recently dispatched one. -/
def dropOldest (os : List Overlay) : List Overlay :=
  match os.map (fun o => o.last) with
  | [] => []
  | x :: xs =>
    let m := xs.foldl min x
    os.eraseP (fun o => o.last == m)

/-- Overlays evicted until one of a size fits: at most four, of at most 8,192 bundles in all. -/
def evictFor (size : Nat) : Nat → List Overlay → List Overlay
  | 0, os => os
  | n + 1, os =>
    if os.length < 4 ∧ (os.map (fun o => o.size)).foldl (· + ·) size ≤ 8192 then os else evictFor size n (dropOldest os)

/-- The overlay that a crew runs, as its resident slot holds it. -/
def State.crewOverlay (s : State) (c : Crew) : Option Overlay :=
  let i := s.inst c.rcb
  let x := (s.part c.part).slot i.slot
  match x.images[c.image]? with
  | none => none
  | some im =>
    (im.overlays[c.prog]?).map (fun o =>
      { part := c.part, slot := i.slot, prog := c.prog, image := c.image, sgen := x.sgen.toNat, size := o.size, code := o.code,
        consts := o.consts, vshape := o.vshape, vconf := o.vconf, trap := o.trap, entry := o.entry, last := 0, bad := [] })

/-- A core given an overlay: one resident and sound is used as it is, otherwise it is copied in, which takes a clock for every eight
bundles. -/
def Core.install (c : Core) (o : Overlay) (stamp : Nat) : Core :=
  if c.overlays.any (fun x => x.same o && x.bad.isEmpty) then
    { c with overlays := c.overlays.map (fun x => if x.same o then { x with last := stamp } else x), loadLeft := 0 }
  else
    { c with overlays := evictFor o.size 5 (c.overlays.filter (fun x => !x.same o)) ++ [{ o with last := stamp }],
             loadLeft := o.size }

/-- The place of an overlay on a core. -/
def Core.overlayIndex (c : Core) (o : Overlay) : Option Nat :=
  let i := c.overlays.findIdx (fun x => x.same o)
  if i < c.overlays.length then some i else none

/-! ## Binding of selectors (R295, R310) -/

/-- The copy engine bound to copy selector k of a core at a site. -/
def State.bindCopy (s : State) (p site k : Nat) : Nat :=
  let m := k % 8
  let e0 := (site + 8 * (k / 8)) % 16
  let d := s.siteDisc (16 + m)
  let order := (List.range 16).map (fun i => (e0 + i) % 16)
  if d.st = .ready then
    match order.find? (fun e => (s.part p).masks.copy.getLsbD (m * 16 + e) && d.units.getLsbD (32 + e)) with
    | some e => m * 16 + e + 1
    | none => 0
  else 0

/-- The engine bound to each selector of a crew, plus 1; 0 where nothing is bound. -/
def State.bindAll (s : State) (p site : Nat) : List Nat :=
  let d := s.siteDisc site
  let m := (s.part p).masks
  let arr : Nat → Bool := fun a =>
    decide (a < arraysOf (s.cls site)) && m.array.getLsbD (site * 8 + a) && d.units.getLsbD a
  let spx := s.cls site == .spx
  (List.range 16).map (fun k => s.bindCopy p site k)
    ++ (List.range 8).map (fun a => if arr a then 128 + site * 8 + a + 1 else 0)
    ++ (List.range 4).map (fun w => if spx && m.array.getLsbD (site * 8 + w) && d.units.getLsbD (8 + w) then 256 + site * 4 + w + 1 else 0)
    ++ (List.range 4).map (fun e =>
      if s.cls site == .srt && m.sort.getLsbD (site * 4 + e) && d.units.getLsbD (12 + e) then 320 + site * 4 + e + 1 else 0)

/-! ## The cut (R66) and its scopes -/

/-- The scope of a cut of a whole partition; below 256 a core, from 256 an engine. -/
def wholeScope : Nat := 1024

/-- The crews of a partition that a cut of a scope affects: those that hold the core, or all. -/
def State.cutCrews (s : State) (p scope : Nat) : List Nat :=
  (s.crews.filter (fun x => x.2.part == p && !x.2.isMailbox && x.2.st != .out &&
    (scope == wholeScope || x.2.cores.contains scope))).map (fun x => x.1)

/-- A crew whose strands have not all started returns to READY: its reservations go back, and its node keeps level, arrival tick and
ageing time (R66, R351). -/
def State.undispatch (s : State) (k : Nat) : State :=
  let c := s.crew k
  let n := s.node c.node
  let r := { c.ready with aged := s.tick - c.ready.aged }
  let t := s.dropCrew k
  let t := if n.grid then t else t.setNode c.node { n with st := .ready }
  { t with ready := insertReady r t.ready }.reclassOne r

/-- An engine's entry of a partition stopped between two interruption units (R46, R66); one without interruption points runs on. -/
def State.stopEngine (s : State) (e p : Nat) : State :=
  match (s.eng e).cur with
  | some c => if c.main.ent.part = p ∧ c.stoppable then s.setAside e c else s
  | none => s

/-- A launch queue whose partition is cut (R285). -/
def LaunchQ.suspend (q : LaunchQ) : LaunchQ := if q.st = .suspended then q else { q with st := .suspended, before := q.st }

/-- A launch queue after the cut (R285). -/
def LaunchQ.unsuspend (q : LaunchQ) : LaunchQ := if q.st = .suspended then { q with st := q.before } else q

/-- Whether a cut of a scope is in progress for a partition. -/
def State.cutting (s : State) (p scope : Nat) : Bool :=
  if scope = wholeScope then (s.part p).cutting else (s.slice scope).cutting && (s.slice scope).part == p

/-- A cut started (R66 steps 1 and 2): no gang of the partition stays staged. -/
def State.startCut (s : State) (p scope : Nat) : State :=
  let t := s.modPart p (fun x => { x with queues := x.queues.map (fun q => (q.1, q.2.suspend)),
                                          cutting := x.cutting || scope == wholeScope })
  let t := if scope = wholeScope then t else { t with slices := t.slices.set scope { t.slice scope with part := p, cutting := true } }
  let crews := t.cutCrews p scope
  let t := (crews.filter (fun k => (s.crew k).st == .loading)).foldl (fun u k => u.undispatch k) t
  let t := (crews.filter (fun k => (s.crew k).st != .loading)).foldl (fun u k =>
    (u.crew k).cores.foldl (fun v n => v.modCore n (fun c => c.askStop .cut)) u) t
  let t := { t with saved := t.saved.map (fun (g : Saved) => if (t.crew g.crew).part = p ∧ g.staged then { g with place := .memory } else g) }
  t.engines.foldl (fun (u : State) (e : Nat × Engine) => u.stopEngine e.1 p) t

/-- CUT (R66): the turn's partition is cut from the resource that the turn's item names. -/
def execCut (s : State) : Host.Outcome State Fault Refusal := .next (s.startCut s.turn.part s.turn.item)

/-- Whether an ACQ or SIGWT has its answer and has still to land (R283). -/
def SlotOp.answered (k : SlotOp) : Bool :=
  match k.wait with
  | .acq _ _ _ _ _ g => g != 0
  | .code _ => true
  | .poisoned => true
  | _ => false

/-- Whether a strand's core has come to the end of its part of the cut (R66 steps 2 and 3): an ACQ or SIGWT whose answer has come lands
before the context is switched out, since it does not land there (R366). -/
def State.coreCut (s : State) (n k : Nat) : Bool :=
  let c := s.core n
  let x := c.ctx
  (c.mode == .stopped || c.mode == .halted) && c.inflight.isEmpty && c.deferred.isEmpty && x.loads.isEmpty && c.wcb.isEmpty &&
    x.slotOps.all (fun k => !k.answered) && c.outs.all (fun o => o.crew != k) && s.ssm.all (fun r => !(r.core == n && r.crew == k)) &&
    s.ssmGroups.all (fun g => !(g.2.core == n && g.2.crew == k)) &&
    (c.mode == .stopped || (x.vxuLong.isNone && x.vlsLong.isNone)) &&
    (match firstPair x.upd.entries with
     | some p => s.pairHeld p
     | none => true)

/-- Whether a crew's part of the cut is complete, remote increments to its flags and from its strands included (R66). -/
def State.crewCut (s : State) (k : Nat) : Bool :=
  (s.crew k).cores.all (fun n => s.coreCut n k) && s.remotes.all (fun r => r.crew != k && !((s.crew k).cores.contains r.fromCore && r.fromPart == (s.crew k).part))

/-- Whether the pending-remote counter of a chiplet reads 0 (R66, R365). -/
def State.prcClear (s : State) (site : Nat) : Bool := s.prc.get site 0 == 0

/-- Whether an engine executes nothing of a partition and the pairs of its stopped entries are accepted or held back by a no-spill region
(R66, R336). -/
def State.engineCut (s : State) (p : Nat) (x : Engine) : Bool :=
  (match x.cur with
   | some c => c.main.ent.part != p
   | none => true) &&
    x.saved.all (fun c => c.main.ent.part != p || (match c.pairs with
      | [] => true
      | y :: _ => s.pairHeld y))

/-- Whether the cut of a scope is complete (R66): its crews and engines are at its end, and nothing is in flight on the paths of its
chiplets. -/
def State.cutDone (s : State) (p scope : Nat) : Bool :=
  s.pathsEmpty ((s.cutCrews p scope).map (fun k => (s.crew k).site)) &&
  (s.cutCrews p scope).all (fun k => s.crewCut k && s.prcClear (s.crew k).site) && s.engines.all (fun e => s.engineCut p e.2)

/-! ## The switch (R67, R68) -/

/-- A context as its image keeps it: registers at and above NV read 0 after a restore, every dirty bit is 0 (R68, R213), and a waiting
ACQ or SIGWT is sent again at restore (R283). -/
def Ctx.saveImage (x : Ctx) : Ctx :=
  { x.toSlot with
    vrf := x.vrf.filter (fun p => decide (p.1 < x.nv))
    slotOps := x.slotOps.map (fun k => match k.wait with
      | .acq l sh tr d _ 0 => { k with wait := .acq l sh tr d false 0 }
      | _ => k) }

/-- A context restored at a tick: the timeouts that start again (R283). -/
def Ctx.loadImage (x : Ctx) (tick : Nat) : Ctx :=
  { x with
    slotOps := x.slotOps.map (fun k => match k.wait with
      | .acq l sh tr _ false 0 => { k with wait := .acq l sh tr (tick + k.tout) false 0 }
      | .sigwt a c v _ => { k with wait := .sigwt a c v (tick + k.tout) }
      | _ => k) }

/-- The waiting latch requests of a strand withdrawn (R283). -/
def State.withdrawAll (s : State) (n k : Nat) : State :=
  (s.core n).ctx.slotOps.foldl (fun t o => match o.wait with
    | .acq l _ _ _ true 0 => t.withdraw n k (s.core n).ctx.part l o.seq
    | _ => t) s

/-- The flag segment of a crew in flag order (R67). -/
def State.flagImage (s : State) (c : Crew) : List (BitVec 16) :=
  (List.range c.flagLen).map (fun i => s.flags.get (c.site * 512 + c.flag + i) 0)

/-- The entries of an engine's queue and elastic buffers that move into queue images in memory (R66). -/
def Engine.putOff (e : Engine) (mine : QEnt → Bool) : Engine :=
  { e with
    queue := e.queue.filter (fun q => !mine q)
    elastic := (e.elastic.map (fun p => (p.1, p.2.filter (fun q => !mine q)))).filter (fun p => !p.2.isEmpty)
    off := e.off ++ (e.queue ++ e.elastic.flatMap (fun p => p.2)).filter mine }

/-- A gang switched out (R67, R68): its contexts are outgoing in the pre-emption slots of its cores, where that of a faulting strand stands
already (R71). Its unstarted entries go with it (R66). -/
def State.switchOut (s : State) (k : Nat) : State :=
  let c := s.crew k
  let inSlot := c.cores.filter (fun n => (s.core n).preempt.isSome)
  let g : Saved :=
    { crew := k, st := c.st, ctxs := c.cores.map (fun n => (n, (s.core n).ctx.saveImage)),
      halted := c.cores.filter (fun n => (s.core n).mode == .halted), faulted := inSlot,
      heads := c.cores.map (fun n =>
        (n, if (s.core n).preempt.isSome then (s.core n).preHead else s.imageHead n k (s.core n).ctx.saveImage)),
      lacs := c.cores.map (fun n => (n, (s.core n).ctx.lacDirty)), place := .outgoing,
      bad := inSlot.filter (fun n => (s.core n).preemptBad) }
  let s : State :=
    { s with saved := s.saved.map (fun (y : Saved) => if y.inSlots c.cores ∧ !y.staged then { y with place := .memory } else y) }
  let t : State := c.cores.foldl (fun (u : State) n => (u.withdrawAll n k).modCore n Core.vacate) s
  let n := t.node c.node
  let t := if n.st = .faulted then t else t.setNode c.node { n with st := .suspended }
  let t := t.unpinCrew c.site k
  let c' : Crew := { c with st := .out, savedFlags := s.flagImage c }
  let t := { t with engines := t.engines.map (fun (e : Nat × Engine) => (e.1, e.2.putOff (fun q => q.crew == k && q.pkt.isNone))) }
  { t.setCrew k c' with saved := t.saved ++ [g] }

/-- The buffers that a crew pins: those of its handle table, and those of the handles its contexts hold (R255). -/
def State.pinList (_ : State) (c : Crew) (xs : List Ctx) : List Nat :=
  ((c.htab.map (fun p => p.2) ++ xs.flatMap (fun x => x.crf.map (fun p => p.2) ++ x.kport.map (fun p => p.2))).filter
    (fun h => h != 0)).map hBid

/-- A crew's entries pinned. -/
def State.pinCrew (s : State) (site k : Nat) (bids : List Nat) : State := bids.foldl (fun t b => t.pin site k b) s

/-- Whether a core is free for a crew: no crew on the package holds it and no boot-mailbox strand does (R48, R350). -/
def State.coreFree (s : State) (n : Nat) : Bool :=
  let c := s.core n
  c.mode == .idle && c.mbState != 1 && c.mbState != 2 && c.mbState != 4 &&
    s.crews.all (fun p => p.2.st == .out || !p.2.cores.contains n)

/-- Whether a core may run a partition now: a shared core only in that partition's slice (R28). -/
def State.coreInSlice (s : State) (p n : Nat) : Bool :=
  match s.slices.find n with
  | some x => x.part == p && !x.cutting
  | none => true

/-- Whether a gang that is out could be restored now, once it is staged. -/
def State.restorable (s : State) (g : Saved) : Bool :=
  let c := s.crew g.crew
  let p := s.part c.part
  c.st == .out && !p.suspended && !s.partCutting c.part &&
    c.cores.all (fun n => s.coreFree n && s.coreInSlice c.part n) &&
    s.pinRoom c.site (s.pinList c (g.ctxs.map (fun x => x.2)))

/-- Whether a gang that is out can be staged (R68): its image is in memory, and the pre-emption slots of its cores hold no context that is
still needed there. A gang staged on one of them whose partition is not served gives way. -/
def State.stageable (s : State) (g : Saved) : Bool :=
  let c := s.crew g.crew
  g.place == .memory && c.st == .out && !(s.part c.part).suspended && !s.partCutting c.part &&
    c.cores.all (fun n => (s.core n).preempt.isNone) &&
    s.saved.all (fun y => !y.inSlots c.cores ||
      (y.staged && !(s.crew y.crew).cores.all (fun n => s.coreInSlice (s.crew y.crew).part n)))

/-- A gang staged: its contexts are copied from memory into the pre-emption slots of its cores (R68). -/
def State.stage (s : State) (g : Saved) : State :=
  let t := s.clearSlots (s.crew g.crew).cores
  { t with saved := t.saved.map (fun (y : Saved) => if y.crew = g.crew then { y with place := .incoming [] } else y) }

/-- The cores of a gang whose context an error has struck: in the slot that it comes from, or before it was copied out (R224). -/
def Saved.poisoned (g : Saved) : List Nat :=
  match g.place with
  | .incoming b => g.bad ++ b
  | _ => g.bad

/-- A strand's context put back on its core through its pre-emption slot: an error that struck it there is POISON at the first bundle that
would issue (R68, R224). -/
def State.restoreCore (s : State) (g : Saved) (o : Option Overlay) (n : Nat) (x : Ctx) : State :=
  s.modCore n (fun c =>
    let y := x.loadImage s.tick
    let d := match o with
      | some ov => { c.install ov s.stamp with loadLeft := 0 }
      | none => c
    let z := if g.st = .faulted then y else y.unparkLongs false
    { d with ctx := z, badRestore := g.poisoned.contains n, preemptBad := false, running := o.bind d.overlayIndex,
             preempt := if g.faulted.contains n then some y else none, preHead := (g.heads.find? (fun h => h.1 == n)).elim 0 (fun h => convertHead s.mgmt.layout h.2),
             mode := if g.halted.contains n then .halted else if g.st = .faulted then .stopped else z.resumeMode })

/-- A gang restored (R67, R68): its pins, its selectors, its flags with the increments held for it, and its strands. A node runs again
once no instance of it is out (R345). -/
def State.restoreGang (s : State) (g : Saved) : State :=
  let c := s.crew g.crew
  let t := s.pinCrew c.site g.crew (s.pinList c (g.ctxs.map (fun x => x.2)))
  let o := s.crewOverlay c
  let t := g.ctxs.foldl (fun u p => u.restoreCore g o p.1 p.2) t
  let t := { t with flags := c.savedFlags.zipIdx.foldl (fun (m : NMap (BitVec 16)) (p : BitVec 16 × Nat) => m.set (c.site * 512 + c.flag + p.2) p.1) t.flags,
                    saved := t.saved.filter (fun y => y.crew != g.crew), stamp := t.stamp + 1 }
  let c' : Crew := { c with st := g.st, bind := t.bindAll c.part c.site, held := [], savedFlags := [] }
  let t : State := c.held.foldl (fun (u : State) r => u.applyRemote r) (t.setCrew g.crew c')
  let n := t.node c.node
  if n.st = .suspended ∧ t.saved.all (fun y => (t.crew y.crew).node != c.node) then t.setNode c.node { n with st := if g.st = .draining ∧ !n.grid then .draining else .running } else t

/-! ## Slices (R28) -/

/-- The partitions whose masks name a resource: a core, or from 256 an engine. -/
def State.resourceSharers (s : State) (k : Nat) : List Nat :=
  if k < 256 then s.sharers (fun m => m.core.getLsbD k)
  else
    let e := k - 256
    if e < 128 then s.sharers (fun m => m.copy.getLsbD e)
    else if e < 256 then s.sharers (fun m => m.array.getLsbD (e - 128))
    else if e < 320 then s.sharers (fun m => m.array.getLsbD ((e - 256) / 4 * 8 + (e - 256) % 4))
    else if e < 384 then s.sharers (fun m => m.sort.getLsbD (e - 320))
    else []

/-- Whether a partition has work ready for a resource (R28). -/
def State.hasWork (s : State) (p k : Nat) : Bool :=
  !(s.part p).suspended &&
    (if k < 256 then s.wantsCore p k || s.crews.any (fun c => c.2.part == p && c.2.st != .out && c.2.cores.contains k)
     else (s.eng (k - 256)).entries.any (fun q => q.part == p))

/-- A slice's length in 3.0 GHz clocks: 100 µs times 1 plus the partition's level-1 priority. -/
def State.sliceLength (s : State) (p : Nat) : Nat := 300000 * (1 + s.effPrio (partRcb p))

/-- The partition that a resource serves after p: the next in the round that has work, p itself when no other has. -/
def State.nextSlice (s : State) (p k : Nat) : Nat :=
  let ps := (s.resourceSharers k).filter (fun q => s.hasWork q k)
  match ps.find? (fun q => decide (p < q)) with
  | some q => q
  | none => ps.headD p

/-- A resource given to a partition for a slice. -/
def State.giveSlice (s : State) (k p : Nat) : State :=
  { s with slices := s.slices.set k { part := p, ends := s.now + s.sliceLength p, cutting := false } }

/-- Whether a partition holds a resource now: a crew of it has the core, or an entry of it is in execution. -/
def State.holds (s : State) (p k : Nat) : Bool :=
  if k < 256 then s.crews.any (fun c => c.2.part == p && c.2.st != .out && c.2.cores.contains k)
  else (s.eng (k - 256)).cur.any (fun c => c.main.ent.part == p)

/-- SLICE_END (R28): the slice of the resource that the turn's item names is over, or its partition has no more work for it. With
another partition waiting the holder is cut; otherwise it goes on. -/
def execSliceEnd (s : State) : Host.Outcome State Fault Refusal :=
  let k := s.turn.item
  match s.slices.find k with
  | none => .next s
  | some x =>
    if x.cutting ∨ (s.now < x.ends ∧ s.hasWork x.part k) then .next s
    else if s.nextSlice x.part k = x.part then .next (s.giveSlice k x.part)
    else .next (s.startCut x.part k)

/-- The launch queues of a partition released after a cut. -/
def State.releaseQueues (s : State) (p : Nat) : State :=
  if (s.part p).suspended ∨ (s.part p).cutting ∨ s.slices.any (fun x => x.2.cutting && x.2.part == p) then s
  else s.modPart p (fun x => { x with queues := x.queues.map (fun q => (q.1, q.2.unsuspend)) })

/-- The exchange of a switch (R68): a gang staged in a slot that has just been exchanged is on its cores in the same pass, where its
partition is served there now; one that is not gives the slot up. -/
def State.exchange (s : State) (ns : List Nat) : State :=
  let t := (s.saved.filter (fun g => g.staged && g.inSlots ns)).foldl (fun (u : State) g => if u.restorable g then u.restoreGang g else u) s
  { t with saved := t.saved.map (fun (g : Saved) => if g.staged ∧ g.inSlots ns then { g with place := .memory } else g) }

/-- The end of a complete cut: its gangs are switched out, the resource goes to the next partition, and the gangs staged for it come on in
the same pass (R67, R68). -/
def State.endCut (s : State) (p scope : Nat) : State :=
  let ks := s.cutCrews p scope
  let ns := ks.flatMap (fun k => (s.crew k).cores)
  let t := ks.foldl (fun u k => u.switchOut k) s
  if scope = wholeScope then ((t.modPart p (fun x => { x with cutting := false })).exchange ns).releaseQueues p
  else
    let t := if scope < 256 then t
      else
        t.setEng (scope - 256) ((t.eng (scope - 256)).putOff (fun q => q.part == p))
    ((t.giveSlice scope (t.nextSlice p scope)).exchange ns).releaseQueues p

/-- The next act on a gang that is out (R68): its outgoing contexts copied to memory, its image staged, or its restore. -/
def State.moveGang (s : State) (g : Saved) : State :=
  if g.place = .outgoing then s.clearSlots (g.ctxs.map (fun p => p.1))
  else if g.staged then (if s.restorable g then s.restoreGang g else s)
  else if s.stageable g then s.stage g
  else s

/-- Whether moveGang does anything. -/
def State.gangMoves (s : State) (g : Saved) : Bool :=
  g.place == .outgoing || (g.staged && s.restorable g) || s.stageable g

/-- CONTEXT_SWITCH (R67, R68): a complete cut of the turn's partition from the resource that the item names ends, or, with no such cut,
the gang of the turn's crew that is out is copied to memory, staged in its cores' pre-emption slots, or comes back. -/
def execContextSwitch (s : State) : Host.Outcome State Fault Refusal :=
  let p := s.turn.part
  let k := s.turn.item
  if s.cutting p k then
    if s.cutDone p k then .next (s.endCut p k) else .next s
  else
    match s.saved.find? (fun g => g.crew == s.turn.crew) with
    | some g => .next (s.moveGang g)
    | none => .next s

end Sys2Proof.Machine
end

