-- ==== Sys2Proof/Machine/Tgs.lean ====
section
/-! DEFINITION. The graph scheduler's steps: NODE_DISPATCH (R347-R351), STRAND_START (R42), NODE_RETIRE (R40, R43, R345) and AGEING
(R349). -/

namespace Sys2Proof.Machine

/-! ## Dispatch (R348, R350) -/

/-- The candidate of a partition and class: the head of its highest non-empty level (R348). -/
def State.candidate (s : State) (p cls : Nat) : Option Ready :=
  let xs := s.ready.filter (fun r => r.part == p && r.cls == cls)
  let m := (xs.map (fun r => r.level)).foldl max 0
  xs.find? (fun r => r.level == m)

/-- The free cores of a site for a partition (R350). -/
def State.freeCores (s : State) (p site : Nat) : List Nat :=
  (s.maskCores p site).filter (fun n => s.coreFree n && s.coreInSlice p n)

/-- The segments of a kind that crews of a site hold. -/
def State.taken (s : State) (site : Nat) (f : Crew → Nat × Nat) : List (Nat × Nat) :=
  (s.crews.filter (fun p => p.2.site == site)).map (fun p => f p.2)

/-- The lowest run of a length among places 0, step, 2 * step, ... below total that meets no taken run. -/
def lowestRun (taken : List (Nat × Nat)) (step len total : Nat) : Option Nat :=
  ((List.range (total / step)).map (fun i => i * step)).find? (fun o =>
    decide (o + len ≤ total) && taken.all (fun t => decide (len = 0) || decide (t.2 = 0) || decide (o + len ≤ t.1) || decide (t.1 + t.2 ≤ o)))

/-- The lowest fitting scratch offset of a site for a node. -/
def State.scrPlace (s : State) (site : Nat) (n : Node) : Option Nat :=
  lowestRun (s.taken site (fun c => (c.scr, c.scrLen))) 65536 (n.scr.toNat * 65536) (2 ^ 24)

/-- The lowest fitting flag index of a site for a node. -/
def State.flagPlace (s : State) (site : Nat) (n : Node) : Option Nat :=
  lowestRun (s.taken site (fun c => (c.flag, c.flagLen))) 1 n.flags.toNat 512

/-- Whether a site can place a node (R350). -/
def State.canPlace (s : State) (p cls site : Nat) (n : Node) : Bool :=
  s.eligible p n.crewWidth cls site && decide (n.crewWidth ≤ (s.freeCores p site).length) && (s.scrPlace site n).isSome &&
    (s.flagPlace site n).isSome

/-- The site that takes a node: of those that can place it the one with the most free cores, then the lowest (R350). -/
def State.placeSite (s : State) (p cls : Nat) (n : Node) : Option Nat :=
  ((List.range 16).filter (fun i => s.canPlace p cls i n)).foldl (fun (b : Option Nat) i =>
    match b with
    | none => some i
    | some j => if (s.freeCores p j).length < (s.freeCores p i).length then some i else b) none

/-- The numbers that name no new crew: those of crews, of ended ones that rest (R373), and of those whose last entry an engine still
executes (R65). -/
def State.crewNumbers (s : State) : NMap Unit :=
  (s.crewsEnded ++ s.engines.flatMap (fun e => e.2.entries.map (fun q => q.crew))).foldl (fun (m : NMap Unit) k => m.set k ())
    (s.crews.map (fun p => (p.1, ())))

/-- A new crew's identifier: the TGS chooses it. -/
def State.newCrew (s : State) : Nat × State :=
  let d := s.draw 65535
  let k := firstGap s.crewNumbers (1 + d.1)
  (if k < 65536 then k else firstGap s.crewNumbers 1, d.2)

/-- A crew's overlay put on its cores (R44). -/
def State.installAll (s : State) (o : Overlay) (cores : List Nat) : State :=
  let t := cores.foldl (fun u n => u.modCore n (fun c => c.install o s.stamp)) s
  { t with stamp := t.stamp + 1 }

/-- A READY item dispatched on a site (R41, R350, R255, R295): its cores and segments reserved, its entries pinned, its selectors
bound and its overlay loading. -/
def State.dispatchOn (s : State) (r : Ready) (f : Pref) (site : Nat) : State :=
  let n := s.node r.node
  let k := s.newCrew
  let t : State := { k.2 with ready := k.2.ready.filter (fun x => x.stamp != r.stamp), tgsNext := r.part + 1 }
  let c : Crew :=
    { Crew.zero with
      node := r.node, gx := r.gx, gy := r.gy, part := r.part, rcb := n.rcb, site := site,
      cores := (s.freeCores r.part site).take n.crewWidth, st := .loading, scr := (s.scrPlace site n).getD 0,
      scrLen := n.scr.toNat * 65536, flag := (s.flagPlace site n).getD 0, flagLen := n.flags.toNat,
      bind := s.bindAll r.part site, htab := (s.inst n.rcb).htab, ready := { r with aged := s.tick - r.aged }, image := f.image.toNat, prog := f.prog.toNat }
  let t := (t.setCrew k.1 c).pinCrew site k.1 (s.pinList c [])
  let t : State := match t.crewOverlay c with
    | some o => t.installAll o c.cores
    | none => t
  let t : State := { t with engines := t.engines.map (fun p => (p.1, { p.2 with base := p.2.base.set k.1 p.2.pops })) }
  let t := if (t.insts.find n.rcb).isSome then t.setInst n.rcb { t.inst n.rcb with sites := insertNat site (t.inst n.rcb).sites } else t
  t.setNode r.node { n with st := if n.grid then (if n.st = .ready then .running else n.st) else .dispatched }

/-- NODE_DISPATCH (R37, R347, R348, R350): the ready item that the turn's item numbers goes to a site, if it is its list's candidate
and can be placed. Its class is decided afresh (R355): another first class takes it into its list; with no eligible class its node faults NO_CLASS. -/
def execNodeDispatch (s : State) : Host.Outcome State Fault Refusal :=
  match s.ready.find? (fun r => r.stamp == s.turn.item) with
  | none => .next s
  | some r =>
    let n := s.node r.node
    if (s.part r.part).suspended ∨ s.partCutting r.part ∨ s.candidate r.part r.cls ≠ some r then .next s
    else
      match s.firstPref n with
      | none => .next ({ s with ready := s.ready.filter (fun x => x.stamp != r.stamp) }.raiseNoClass r.node)
      | some f =>
        if f.cls.toNat ≠ r.cls then .next (s.moveReady r)
        else
          match s.placeSite r.part r.cls n with
          | none => .next s
          | some site =>
            if s.pinRoom site ((s.inst n.rcb).htab.map (fun p => hBid p.2)) then .next (s.dispatchOn r f site) else .next s

/-! ## The start of the strands (R42) -/

/-- The registers s0-s9 of a strand at its start. -/
def startRegs (i width : Nat) (args : Bits512) : NMap Word :=
  [(0, BitVec.ofNat 64 i), (1, BitVec.ofNat 64 width)] ++
    (List.range 8).map (fun j => (2 + j, BitVec.ofNat 64 (fld args (64 * j) 64)))

/-- What a strand's start takes from its graph instance. -/
structure StartRec where
  args : Bits512
  table : Nat
  nent : Nat
  htab : NMap Handle
  argEnt : BitVec 3
  argOff : BitVec 48
  argBase : Word
  node : Nat
  deriving DecidableEq, Repr

/-- The context in which strand i of a crew starts (R42). -/
def startCtx (k : Nat) (c : Crew) (o : Overlay) (g : StartRec) (i : Nat) : Ctx :=
  let h := dropRights (g.htab.get g.argEnt.toNat 0) 7
  { Ctx.zero with
    crew := k, part := c.part, cidx := i, csize := c.cores.length, srf := startRegs i c.cores.length g.args,
    crf := if h = 0 then [] else [(0, h)], pc := o.entry.setWidth 64, vshape := o.vshape, vconf := o.vconf, tvec := o.trap,
    htbTable := BitVec.ofNat 16 g.table, htbNent := BitVec.ofNat 11 g.nent, htab := g.htab, argEnt := g.argEnt, argOff := g.argOff,
    argBase := g.argBase, crewId := BitVec.ofNat 16 k, nodeId := BitVec.ofNat 16 g.node, gridX := BitVec.ofNat 16 c.gx,
    gridY := BitVec.ofNat 16 c.gy }

/-- A strand started on its core. -/
def Core.start (c : Core) (o : Overlay) (x : Ctx) (mailbox : Bool) : Core :=
  let d := c.vacate
  { d with ctx := x, mode := .run, running := d.overlayIndex o, wcb := [], rcache := [], mbStrand := mailbox,
           mbState := if mailbox then 2 else d.mbState }

/-- A range of memory that reads as zero from now on. -/
def State.zeroMem (s : State) (lo len : Nat) : State :=
  { s with mem := Memory.clear s.mem lo (lo + len)
           poison := if s.poison.isEmpty then s.poison else s.poison.filter (fun g => decide (g * 64 < lo) || decide (lo + len ≤ g * 64)) }

/-- A crew's strands started, on zeroed segments and shares. -/
def State.startCrew (s : State) (k : Nat) (o : Overlay) (g : StartRec) : State :=
  let c := s.crew k
  let t := s.zeroMem (ssmAddr c.site c.scr) c.scrLen
  let t := { t with flags := t.flags.filter (fun p =>
    decide (p.1 < c.site * 512 + c.flag) || decide (c.site * 512 + c.flag + c.flagLen ≤ p.1)) }
  let t := c.cores.foldl (fun (u : State) n =>
    let a := u.psmShare n c.part
    (u.zeroMem a.1 a.2).modCore n (fun x => x.start o (startCtx k c o g (c.indexOf n)) c.isMailbox)) t
  t.setCrew k { c with st := .running }

/-- Where the overlay of a boot-mailbox strand stands among a core's overlays: it belongs to no resident slot (log 6). -/
def mailboxSlot : Nat := 256

/-- The image in the buffer of a core's boot mailbox (R47). -/
def State.mailboxImage (s : State) (n : Nat) : Option Image :=
  let h := (s.core n).mbImg
  let e := s.buf (hBid h)
  if h = 0 ∨ e.state ≠ 1 ∨ e.gen.toNat ≠ hGen h ∨ windowBid ≤ hBid h ∨ s.bufPoisoned (hAddr h 0) (viewLen (hView h) e.size) then none
  else Config.parseImage (Memory.readN s.mem (hAddr h 0) (viewLen (hView h) e.size))

/-- What the start of a boot-mailbox strand takes (R48): ARGB is entry 0 at MBARG.OFF, and the one table entry holds IMG.
DEDUCED (log 56). -/
def State.mailboxStart (s : State) (n : Nat) : StartRec :=
  let c := s.core n
  let rec_ : Nat := match s.mailboxImage n with
    | some im => (im.nodes.headD { pend := 0, pinh := false, prio := 0, width := 0, scr := 0, flags := 0, grid := false, prefWord := 0, succs := [], argrec := 0, stencil := 0, gxl := 0, gyl := 0, slist := 0 }).argrec.toNat
    | none => 0
  let base := c.mbOff.toNat + rec_
  { args := BitVec.ofNat 512 (ofBytes (Memory.readN s.mem (hAddr c.mbImg base) 64)), table := 0, nent := 0, htab := [(0, c.mbImg)],
    argEnt := 0, argOff := c.mbOff, argBase := BitVec.ofNat 64 base, node := 0xFFFF }

/-- What the start of a graph node's strands takes (R33-R35, R42): the handle table is the copy taken at dispatch (R155). -/
def State.nodeStart (s : State) (c : Crew) : StartRec :=
  let i := s.inst c.rcb
  let n := s.node c.node
  { args := n.args, table := c.rcb, nent := i.nent, htab := c.htab, argEnt := i.argEnt, argOff := i.argOff,
    argBase := BitVec.ofNat 64 (i.argOff.toNat + n.argrec.toNat), node := c.node }

/-- Whether a crew can start: it is loading and every core of it holds the overlay (R44). -/
def State.crewLoaded (s : State) (k : Nat) : Bool :=
  (s.crew k).st == .loading && (s.crew k).cores.all (fun n => (s.core n).loadLeft == 0)

/-- STRAND_START (R42, R44, R48): the strands of the turn's crew start in one clock. -/
def execStrandStart (s : State) : Host.Outcome State Fault Refusal :=
  let k := s.turn.crew
  let c := s.crew k
  if !s.crewLoaded k then .next s
  else if c.isMailbox then
    let n := c.cores.headD 0
    let s := s.settleView (s.core n).mbImg
    match (s.core n).overlays.find? (fun o => o.slot == mailboxSlot) with
    | none => .next s
    | some o => .next (s.startCrew k o (s.mailboxStart n))
  else
    match s.crewOverlay c with
    | none => .next s
    | some o =>
      let t := s.startCrew k o (s.nodeStart c)
      let n := t.node c.node
      .next (if n.grid then t else t.setNode c.node { n with st := .running })

/-! ## Retirement (R40, R43, R262, R271) -/

/-- Whether a strand that has halted has nothing left to do (R43). -/
def State.strandDone (s : State) (n k : Nat) : Bool :=
  let c := s.core n
  let x := c.ctx
  c.mode == .halted && x.crew == k && x.ldc == 0 && x.stc == 0 && x.cpc == 0 && x.tlc == 0 && x.upc == 0 && c.inflight.isEmpty &&
    c.deferred.isEmpty && x.vxuLong.isNone && x.vlsLong.isNone && c.wcb.isEmpty && c.outs.all (fun o => o.crew != k) &&
    c.replay.all (fun o => o.crew != k) && x.upd.entries.isEmpty && s.ssm.all (fun r => !(r.core == n && r.crew == k))

/-- Whether a crew's node instance can retire (R43). -/
def State.crewDone (s : State) (k : Nat) : Bool :=
  (s.crew k).st == .draining && (s.crew k).cores.all (fun n => s.strandDone n k) &&
    s.engines.all (fun p => p.2.entries.all (fun q => q.crew != k || q.pkt.isSome))

/-- The first core of a crew that keeps an unresolved store whose fault no read has raised (R279). -/
def State.crewUnresolved (s : State) (k : Nat) : Option (Nat × Nat × Handle) :=
  (s.crew k).cores.findSome? (fun n =>
    let x := (s.core n).ctx
    match x.unresolved, x.noted with
    | some u, _ => some (n, u.1, u.2)
    | none, b :: _ => some (n, b.2.1, b.2.2)
    | none, [] => none)

/-- The fault of a retirement with an unresolved store (R279). -/
def unresolvedFault (off : Nat) (h : Handle) : FaultInfo :=
  { code := cSTORE_UNRESOLVED, src := 3, more := false, slot := 0, bidx := 0, detail := BitVec.ofNat 64 off, handle := h, estat := 0,
    esite := 0, eng := 0, cidxq := 0, pidxv := 0 }

/-- Every latch that a strand still holds released and its waiting requests withdrawn, as its node retires. -/
def State.quitLatches (s : State) (n k : Nat) : State :=
  let x := (s.core n).ctx
  x.latches.foldl (fun (t : State) l => t.releaseLatch n k x.part l.1) (s.withdrawAll n k)

/-- OWN returned where it names a node (R262). -/
def State.dropOwn (s : State) (k : Nat) : State :=
  let fix : Buf → Buf := fun b => if b.own.toNat = k ∧ k ≠ 0xFFFF then { b with own := 0xFFFF } else b
  { s with bufs := s.bufs.map (fun p => (p.1, fix p.2)), pins := s.pins.map (fun p => (p.1, { p.2 with copy := fix p.2.copy })) }

/-- A predecessor's retirement at one successor (R40): its pending count falls, and at 0 it is READY. -/
def State.decrementPend (s : State) (k : Nat) : State :=
  let n := s.node k
  if n.st ≠ .waiting then s
  else
    let t := s.setNode k { n with pend := subSat n.pend 1 }
    if n.pend.toNat ≤ 1 then t.makeReady k else t

/-- A node whose last instance has retired (R40, R43): its successors are told, and an instance whose every node has retired ends. -/
def State.retireNode (s : State) (k : Nat) : State :=
  let n := s.node k
  let t := (s.setNode k { n with st := .retired }).dropOwn k
  let t := n.succs.foldl (fun (u : State) j => u.decrementPend j) t
  let i := n.rcb
  if (t.inst i).nodes.all (fun j => (t.node j).st == .retired) then t.endInstance i (some 0) 2 else t

/-- A crew retired (R43): what it holds goes back, and its node goes on or retires. -/
def State.retireCrew (s : State) (k : Nat) : State :=
  let c := s.crew k
  let t := c.cores.foldl (fun (u : State) n => u.quitLatches n k) s
  let t := t.dropCrew k
  let n := t.node c.node
  let t := t.setNode c.node { n with done := n.done ++ [gridKey c.gx c.gy] }
  if (t.node c.node).done.length = n.places.length then t.retireNode c.node
  else t.releaseAround c.node c.gx c.gy

/-- NODE_RETIRE (R43, R279): the node instance of the turn's crew retires once its strands have halted and all its counts and queue
entries are done. With an unresolved store nothing has read, its node faults instead. -/
def execNodeRetire (s : State) : Host.Outcome State Fault Refusal :=
  let k := s.turn.crew
  if !s.crewDone k then .next s
  else if (s.crew k).isMailbox then .next (s.dropCrew k)
  else
    match s.crewUnresolved k with
    | some (n, off, h) =>
      .next ((s.modCtx n (fun x => { x with unresolved := none, noted := [] })).front
        [.run { Turn.zero with core := n, crew := k, fault := some (unresolvedFault off h) } .fault])
    | none => .next (s.retireCrew k)

/-! ## Ageing (R349) -/

/-- Whether a ready item has waited one AGE interval in its level. -/
def State.agesNow (s : State) (r : Ready) : Bool :=
  decide (r.aged + s.effAge (s.node r.node).rcb * 100 ≤ s.tick) && decide (r.level < s.ceilOf r.part)

/-- A ready item one level up, at the tail. -/
def State.ageOne (s : State) (r : Ready) : State :=
  let r' : Ready := { r with level := r.level + 1, arrive := s.tick, aged := s.tick, stamp := s.stamp, fresh := false }
  { s with ready := insertReady r' (s.ready.filter (fun x => x.stamp != r.stamp)), stamp := s.stamp + 1 }

/-- AGEING (R349): every item that has waited its AGE interval rises one level, in the order they stand. -/
def execAgeing (s : State) : Host.Outcome State Fault Refusal :=
  .next ((s.ready.filter (fun r => s.agesNow r)).foldl (fun (t : State) r => t.ageOne r) s)

end Sys2Proof.Machine
end

