-- ==== Sys2Proof/Machine/Launch.lean ====
section
/-! DEFINITION. Launch queues and their packets: LAUNCH_PACKET_WRITE (R286), INVOKE (R31, R290), BARRIER with its timeout (R291), SIGNAL,
COPY and RESET (R292). The turn names a packet by its partition, its queue, and, as the item, its sequence number. -/

namespace Sys2Proof.Machine

/-! ## Packets of a queue -/

/-- LAUNCH_PACKET_WRITE (R286): a host's write to a launch queue's window. One aligned write of 64 bytes is accepted while the queue has
room; any other write to PKT is dropped and counted; the other registers ignore writes. -/
def execLaunchPacketWrite (part : BitVec 6) (q : BitVec 4) (off : BitVec 12) (bytes : BitVec 7) (pkt : Bits512) (s : State) :
    Host.Outcome State Fault Refusal :=
  let d := (s.part part.toNat).queue q.toNat
  if !d.v ∨ 64 ≤ off.toNat then .next s
  else if off = 0 ∧ bytes.toNat = 64 ∧ 0 < d.free then .next (s.modQueue part.toNat q.toNat (fun x => x.accept pkt))
  else .next (s.modQueue part.toNat q.toNat (fun x => { x with drops := if x.drops = 0xFFFF then x.drops else x.drops + 1 }))

/-- The packet that the turn names, while it has not completed. -/
def State.turnPkt (s : State) : Option LPkt :=
  ((s.part s.turn.part).queue s.turn.queue).pkts.find? (fun k => k.seq == s.turn.item)

/-- The packet that the turn names changed. -/
def State.modPkt (s : State) (f : LPkt → LPkt) : State :=
  s.modQueue s.turn.part s.turn.queue (fun d => { d with pkts := d.pkts.map (fun k => if k.seq = s.turn.item then f k else k) })

/-- The packet that the turn names completed with a code (R292). -/
def State.endPkt (s : State) (code : Nat) : State := s.completePacket s.turn.part s.turn.queue s.turn.item code

/-- A meaning of a packet that has not started. -/
def startPkt (f : State → State) (s : State) : Host.Outcome State Fault Refusal :=
  match s.turnPkt with
  | some k => if k.started.isNone then .next (f s) else .next s
  | none => .next s

/-! ## INVOKE (R31, R290, R342) -/

/-- Whether every extent of a buffer is present in HBM and pinned (R31). -/
def State.bufResident (s : State) (h : Handle) : Bool :=
  let b := s.buf (hBid h)
  b.state == 1 && b.gen.toNat == hGen h &&
    (List.range 8).all (fun m => (bufExts (hBid h) b m).all (fun k =>
      let e := s.ext k
      e.pinned && (e.st == .hbm || e.st == .recal)))

/-- Whether a slot passes INVOKE's residency check (R31 step 2). -/
def State.slotResident (s : State) (x : Slot) : Bool :=
  x.state == 2 && (x.imgs ++ x.bufs).all (fun h => h == 0 || s.bufResident h)

/-- The nodes of a slot's graph: those of its primary image. -/
def Slot.graph (x : Slot) : List NodeDesc := match x.images with
  | [] => []
  | im :: _ => im.nodes

/-- Whether an INVOKE's argument block is good (R31 step 3). -/
def State.argsOk (s : State) (p : Nat) (h : Handle) (off : Nat) (ns : List NodeDesc) : Bool :=
  (s.hubCap p h 0 0 .r).isNone && ns.all (fun n => (s.hubCap p h ((off + n.argrec.toNat : Nat) : Int) 64 .r).isNone)

/-- A node's argument record as the hub captures it (R343), no bin being pending in it (R335); what a poisoned record gives is open (log 4). DEDUCED (log 46). -/
def State.argRecord (s : State) (h : Handle) (off : Nat) : Bits512 :=
  let a := hAddr h off
  let x := BitVec.ofNat 512 (ofBytes (Memory.readN s.mem a 64))
  if s.bufPoisoned a 64 then (Config.freeWord s.draws).setWidth 512 else x

/-- Node entries reserved, in an order the hub chooses. -/
def State.reserveNodes (s : State) : Nat → List Nat × State
  | 0 => ([], s)
  | n + 1 =>
    let d := s.draw 65536
    let k := firstGap s.nodes d.1
    let k := if k < 65536 then k else firstGap s.nodes 0
    let r := (d.2.setNode k Node.zero).reserveNodes n
    (k :: r.1, r.2)

/-- The region control block of a new graph instance, of its slot's template (R356, R359). DEDUCED (log 51). -/
def templateRcb (x : Slot) (p job : Nat) : Rcb :=
  let pol := fld x.rtpl0 40 2
  { Rcb.zero with
    level := 3, part := BitVec.ofNat 6 p, inh := BitVec.ofNat 5 (fld x.rtpl0 51 5), prio := BitVec.ofNat 3 (fld x.rtpl0 45 3),
    policy := if pol = 3 then 0 else BitVec.ofNat 2 pol, state := 1, parent := BitVec.ofNat 15 job,
    budget := BitVec.ofNat 32 (fld x.rtpl1 32 32), binq := BitVec.ofNat 32 (fld x.rtpl1 0 32),
    age := BitVec.ofNat 14 (max 10 (min 10000 (fld x.rtpl0 0 14))) }

/-- A free index for a job or a graph instance (R358): the hub chooses it. -/
def State.newRcb (s : State) : Nat × State :=
  let d := s.draw (32768 - 65)
  let k := firstGap s.rcbs (65 + d.1)
  (if k < 32768 then k else firstGap s.rcbs 65, d.2)

/-- Whether a free index remains. -/
def State.rcbFree (s : State) : Bool := decide (firstGap s.rcbs 65 < 32768)

/-- The node entry of a description (R341, R342). -/
def NodeDesc.entry (d : NodeDesc) (rcb : Nat) (rgen : BitVec 16) (map : List Nat) (args : Bits512) : Node :=
  { Node.zero with
    pend := d.pend, st := .waiting, pinh := d.pinh, prio := d.prio, width := d.width, scr := d.scr, flags := d.flags, grid := d.grid,
    rgen := rgen, prefWord := d.prefWord &&& 0x0000FFFFFFFFFFFF, succs := d.succs.map (fun j => map.getD j 0), argrec := d.argrec,
    stencil := d.stencil, gxl := d.gxl, gyl := d.gyl, slist := d.slist, args := args, rcb := rcb }

/-- The handle table of a new instance (R33): the packet's eight handles, then the slot's buffers. -/
def startTable (hs : List Handle) (bufs : List Handle) : NMap Handle :=
  (((hs ++ bufs).zipIdx.map (fun (p : Handle × Nat) => (p.2, p.1))).filter (fun p => p.2 != 0))

/-- The handoff entries of a slot's table (R262). -/
def Slot.handoffs (x : Slot) : List Nat :=
  match x.images with
  | [] => []
  | im :: _ => (im.handles.zipIdx.filter (fun (p : HandleDesc × Nat) => p.1.handoff)).map (fun (p : HandleDesc × Nat) => 8 + p.2)

/-- A graph instance started (R31 steps 4-6). The bins pending in its argument records apply as they are read (R335). -/
def State.startInstance (s : State) (x : Slot) (p : InvokePkt) (hs : List Handle) : State :=
  let part := s.turn.part
  let q := s.turn.queue
  let ns := x.graph
  let h := hs.getD p.argent.toNat 0
  let s := ns.foldl (fun (u : State) (d : NodeDesc) => u.openAccess (hAddr h (p.argoff.toNat + d.argrec.toNat)) 64) s
  let r := s.newRcb
  let i := r.1
  let t := r.2.setRcb i (templateRcb x part ((s.part part).queue q).job.toNat)
  let e := t.reserveNodes ns.length
  let t := (ns.zip e.1).foldl (fun (u : State) (d : NodeDesc × Nat) =>
    u.setNode d.2 (d.1.entry i x.rcnt e.1 (s.argRecord h (p.argoff.toNat + d.1.argrec.toNat)))) e.2
  let g : Inst :=
    { part := part, slot := p.slot.toNat, queue := q, seq := s.turn.item, nodes := e.1, htab := startTable hs x.bufs,
      nent := 7 + x.nhand.toNat, handoff := x.handoffs, argEnt := p.argent, argOff := p.argoff, sites := [] }
  let t := t.setInst i g
  let t := t.modPart part (fun y => { y with slots := y.slots.set p.slot.toNat { x with rcnt := x.rcnt + 1 } })
  let t := t.modPkt (fun k => { k with started := some s.tick, inst := some i })
  let t := ((ns.zip e.1).filter (fun (d : NodeDesc × Nat) => d.1.pend == 0)).foldl
    (fun (u : State) (d : NodeDesc × Nat) => u.makeReady d.2) t
  if ns.isEmpty then t.endInstance i (some 0) 2 else t

/-- Whether a COPY packet in execution has written some of the n bytes at an address and will write more of them (R292). -/
def State.copyTears (s : State) (x : ExecEnt) (a n : Nat) : Bool :=
  match x.main.ent.pkt with
  | none => false
  | some (p, q, seq) =>
    match (((s.part p).queue q).pkts.find? (fun k => k.seq == seq)).bind (fun k => decodePacket k.bits) with
    | some (.copyPacket c) =>
      let d := hAddr x.main.ent.h1 c.doff.toNat
      let m := d + x.main.prog * 2 ^ 23
      x.main.prog != 0 && decide (a < m) && decide (m < a + n) && decide (m < d + c.len.toNat)
    | _ => false

/-- Whether a patch under way would leave a mixture in one of the argument records that an INVOKE captures (R364): the INVOKE waits, so that
each record holds the old words or the patched ones. -/
def State.argsTorn (s : State) (h : Handle) (off : Nat) (ns : List NodeDesc) : Bool :=
  (s.engines.flatMap (fun e => e.2.cur.toList ++ e.2.saved)).any (fun x =>
    ns.any (fun n => s.copyTears x (hAddr h (off + n.argrec.toNat)) 64))

/-- The export indices of an INVOKE in order. -/
def invokeIndices (p : InvokePkt) : List (BitVec 16) := [p.xh0, p.xh1, p.xh2, p.xh3, p.xh4, p.xh5, p.xh6, p.xh7]

/-- INVOKE (R31, R290): its checks in order, and the start of its graph instance. With too few free node entries, or no free region
control block (R358), it waits, and so it does while a patch stands half made in an argument record (R364). -/
def execInvoke (p : InvokePkt) (s : State) : Host.Outcome State Fault Refusal :=
  startPkt (fun t =>
    let y := t.part t.turn.part
    let x := y.slot p.slot.toNat
    let hs := (invokeIndices p).map (fun i => y.exportAt i.toNat)
    if !t.slotResident x then t.endPkt 1
    else if !t.argsOk t.turn.part (hs.getD p.argent.toNat 0) p.argoff.toNat x.graph then t.endPkt 2
    else if 65536 < t.nodes.length + x.graph.length ∨ !t.rcbFree ∨ t.argsTorn (hs.getD p.argent.toNat 0) p.argoff.toNat x.graph then t
    else t.startInstance x p hs) s

/-! ## BARRIER (R291) -/

/-- The conditions of a BARRIER that are used: number, export index and offset. -/
def barrierUsed (p : BarrierPkt) : List (Nat × BarCond) :=
  ([p.c0, p.c1, p.c2, p.c3].zipIdx.map (fun (c : BarCond × Nat) => (c.2, c.1))).filter (fun c => p.use.getLsbD c.1)

/-- A signal as the hub reads it; what a poisoned one gives is open (log 4). DEDUCED (log 46). -/
def State.hubSignal (s : State) (h : Handle) (off : Nat) : Word :=
  let a := hAddr h off
  if s.bufPoisoned a 8 then Config.freeWord s.draws else s.signalAt a

/-- What an evaluation of a BARRIER comes to. -/
inductive BarRes where
  | bad
  | abort (k : Nat)
  | ok
  | wait
  deriving DecidableEq, Repr

/-- One evaluation of a BARRIER under the handles it copied at its start. DEDUCED (log 46). -/
def State.evalBarrier (s : State) (p : BarrierPkt) (hs : List Handle) : BarRes :=
  let part := s.turn.part
  if (barrierUsed p).any (fun c => (s.hubCap part (hs.getD c.1 0) (c.2.off.toNat : Int) 8 .r).isSome) then .bad
  else
    let vs := (barrierUsed p).map (fun c => (c.1, s.hubSignal (hs.getD c.1 0) c.2.off.toNat))
    match vs.find? (fun v => v.2.msb) with
    | some v => .abort v.1
    | none =>
      let done := if p.any then vs.any (fun v => v.2 == 0) else vs.all (fun v => v.2 == 0)
      if done ∨ vs.isEmpty then .ok else .wait

/-- The pending bins of a BARRIER's signals applied, as its evaluation reads them (R335). -/
def State.applyBarrier (s : State) (p : BarrierPkt) (hs : List Handle) : State :=
  (barrierUsed p).foldl (fun (t : State) (c : Nat × BarCond) =>
    if (t.hubCap t.turn.part (hs.getD c.1 0) (c.2.off.toNat : Int) 8 .r).isSome then t else t.openAccess (hAddr (hs.getD c.1 0) c.2.off.toNat) 8) s

/-- A queue ABORTED. -/
def LaunchQ.abort (d : LaunchQ) (code : Nat) : LaunchQ :=
  let e := { d with acode := BitVec.ofNat 32 code }
  if e.st = .suspended then { e with before := .aborted } else { e with st := .aborted }

/-- A BARRIER's abort: the queue is ABORTED, and its completion signal holds the code negated. -/
def State.abortBarrier (s : State) (code : Nat) : State :=
  let t := s.modQueue s.turn.part s.turn.queue (fun d => d.abort code)
  (t.endPkt 6).completionSignal s.turn.part s.turn.queue true (BitVec.ofInt 64 (-(code : Int)))

/-- One evaluation of the turn's BARRIER by the chain of R291, with what it does where no condition decides. -/
def State.barrierStep (s : State) (p : BarrierPkt) (hs : List Handle) (wait : State → State) : State :=
  let t := s.applyBarrier p hs
  match t.evalBarrier p hs with
  | .bad => t.endPkt 2
  | .abort j => t.abortBarrier (p.acode.toNat + j + 1)
  | .ok => t.endPkt 0
  | .wait => wait t

/-- BARRIER (R291): at its start, and again after, it evaluates its conditions. -/
def execBarrier (p : BarrierPkt) (s : State) : Host.Outcome State Fault Refusal :=
  match s.turnPkt with
  | none => .next s
  | some k =>
    let hs := if k.started.isSome then k.hs else [p.c0, p.c1, p.c2, p.c3].map (fun c => (s.part s.turn.part).exportAt c.xh.toNat)
    if p.use = 0 then .next (s.endPkt 0)
    else
      .next (s.barrierStep p hs (fun t =>
        if k.started.isSome then t else t.modPkt (fun x => { x with started := some t.tick, hs := hs })))

/-- BARRIER_TIMEOUT (R291): once its ticks have passed, the started BARRIER that the turn names goes through its chain once more, which
ends it, TIMEOUT where nothing earlier in the chain does. DEDUCED (log 46). -/
def execBarrierTimeout (s : State) : Host.Outcome State Fault Refusal :=
  match s.turnPkt with
  | none => .next s
  | some k =>
    match decodePacket k.bits, k.started with
    | some (.barrier p), some t0 =>
      if p.tout ≠ 0 ∧ t0 + p.tout.toNat ≤ s.tick then .next (s.barrierStep p k.hs (fun t => t.endPkt 5)) else .next s
    | _, _ => .next s

/-! ## SIGNAL, COPY and RESET (R292) -/

/-- SIGNAL (R292). -/
def execSignal (p : SignalPkt) (s : State) : Host.Outcome State Fault Refusal :=
  startPkt (fun t =>
    let h := (t.part t.turn.part).exportAt p.xh.toNat
    if (t.hubCap t.turn.part h (p.off.toNat : Int) 8 .w).isSome ∨ isWindow h then t.endPkt 7
    else (t.signalPut (hAddr h p.off.toNat) p.op p.value).endPkt 0) s

/-- The copy engines of a partition's mask in service (R292). -/
def State.copyEngines (s : State) (part : Nat) : List Nat :=
  (List.range 128).filter (fun e =>
    (s.part part).masks.copy.getLsbD e && (s.siteDisc (16 + e / 16)).st == .ready && (s.siteDisc (16 + e / 16)).units.getLsbD (32 + e % 16))

/-- A COPY packet's checks. -/
def copyPktChk (p : CopyPkt) (s : State) (part : Nat) (h0 h1 : Handle) : Bool :=
  (s.hubCap part h0 (p.soff.toNat : Int) p.len.toNat .r).isNone && (s.hubCap part h1 (p.doff.toNat : Int) p.len.toNat .w).isNone

/-- A COPY packet given to a copy engine, which the hub chooses among those with room; its word gives SOFF where COPY has it (R300).
DEDUCED (log 45). -/
def State.startCopy (s : State) (p : CopyPkt) : State :=
  let part := s.turn.part
  let y := s.part part
  let h0 := y.exportAt p.sxh.toNat
  let h1 := y.exportAt p.dxh.toNat
  let es := s.copyEngines part
  let open_ := es.filter (fun e => decide ((s.eng e).queue.length < 16))
  if p.len = 0 then s.endPkt 0
  else if !copyPktChk p s part h0 h1 ∨ es = [] then s.endPkt 7
  else if open_ = [] then s
  else
    let d := s.draw open_.length
    let e := open_.getD d.1 0
    let q : QEnt :=
      { word := BitVec.ofNat 256 (p.soff.toNat * 2 ^ 184), h0 := h0, h1 := h1, core := 0, crew := 0, part := part, stamp := s.stamp, sill := 0,
        pkt := some (part, s.turn.queue, s.turn.item), node := 0xFFFF, chain := none }
    let x := d.2.eng e
    let t := d.2.setEng e { x with queue := x.queue ++ [q] }
    { t with stamp := t.stamp + 1 }.modPkt (fun k => { k with started := some s.tick, hs := [h0, h1] })

/-- One row of 8 MiB of a COPY packet, or one try to give the packet that it copies to a launch queue (R287, R292, R300). -/
def copyPktUnit (p : CopyPkt) (s : State) (a : Act) : UnitRes :=
  let o := a.prog * 2 ^ 23
  let n := min (2 ^ 23) (p.len.toNat - o)
  if isWindow a.ent.h1 then windowTry s.turn.engine p.soff.toNat s a
  else
  match copyRow s a.ent (p.soff.toNat + o : Nat) (p.doff.toNat + o : Nat) n with
  | none => .wait
  | some (.error r) => .fail r
  | some (.ok t) => if p.len.toNat ≤ o + 2 ^ 23 then .done t else .more t (a.prog + 1)

/-- The checks of a COPY packet's entry at pop. -/
def copyPktEnt (p : CopyPkt) (s : State) (q : QEnt) : Option EngErr :=
  firstErr [windowGeom q (p.len.toNat == 64 && p.doff.toNat == 0), s.entErr q q.h0 p.soff.toNat p.len.toNat .r,
    s.entErr q q.h1 p.doff.toNat p.len.toNat .w]

/-- COPY as a launch packet (R292): its start, or, when the turn's engine executes it, one row of it. -/
def execCopyPacket (p : CopyPkt) (s : State) : Host.Outcome State Fault Refusal :=
  match s.active s.turn.engine with
  | some a =>
    if a.ent.pkt = some (s.turn.part, s.turn.queue, s.turn.item) then runEntry (p.len == 0) (copyPktEnt p) (copyPktUnit p) s
    else startPkt (fun t => t.startCopy p) s
  | none => startPkt (fun t => t.startCopy p) s

/-- RESET (R292): once every earlier packet has completed the queue runs again, its completion signal 0. -/
def execReset (_ : ResetPkt) (s : State) : Host.Outcome State Fault Refusal :=
  startPkt (fun t =>
    let d := (t.part t.turn.part).queue t.turn.queue
    if (d.pkts.head?.map (fun k => k.seq)) ≠ some t.turn.item ∨ d.st = .frozen ∨ d.st = .suspended then t
    else
      let u := (t.endPkt 0).modQueue t.turn.part t.turn.queue (fun x => { x with st := .running, acode := 0 })
      u.completionSignal t.turn.part t.turn.queue true 0) s

end Sys2Proof.Machine
end

