-- ==== Sys2Proof/Machine/Sites.lean ====
section
/-! DEFINITION. Sites and what acts on them: state changes (R351-R354, R423), forced drains, the power governor and thermal limits (R21,
R424), the boot mailbox (R47, R48), the host aperture (R411) and register writes from outside (R5). -/

namespace Sys2Proof.Machine

/-! ## Site states (R353) -/

/-- Whether an engine of a site holds anything. -/
def State.siteQueues (s : State) (site : Nat) : Bool :=
  s.engines.any (fun p => engSite p.1 == site && !p.2.entries.isEmpty)

/-- Whether any core has an access in flight to a MEM. -/
def State.memBusy (s : State) (m : Nat) : Bool :=
  let at_ : Nat → Bool := fun a => s.memAt a == m
  s.cores.any (fun p =>
    p.2.ctx.loads.any (fun l => l.todo.any (fun g => at_ (g * 64))) || p.2.wcb.any (fun l => l.cells.any (fun c => at_ c.1)) ||
      p.2.outs.any (fun o => o.cells.any (fun c => at_ c.1)) || p.2.replay.any (fun o => o.cells.any (fun c => at_ c.1)) ||
      p.2.ctx.upd.entries.any (fun e => e.any (fun x => at_ x.addr)))

/-- Whether a site is idle (R353): no crew, no queue entry, no access in flight. -/
def State.siteIdle (s : State) (site : Nat) : Bool :=
  s.crews.all (fun p => p.2.site != site) && !s.siteQueues site && s.ssm.all (fun r => r.site != site) &&
    (decide (site < 16) || !s.memBusy (site - 16))

/-- Whether R353 has a transition of a site from one state to another; compute and MEM sites alone leave ready other than to absent. -/
def siteMove (site : Nat) (a b : SiteSt) : Bool :=
  match a, b with
  | .absent, _ => false
  | _, .absent => true
  | .ready, .draining => decide (site < 24)
  | .draining, .fenced => true
  | .fenced, .calibrating => true
  | .calibrating, .ready => true
  | .calibrating, .fenced => true
  | .fenced, .ready => true
  | _, _ => false

/-- A site's entry after a change of state (R352). -/
def Disc.change (d : Disc) (to_ : SiteSt) (tick : Nat) : Disc :=
  { d with st := to_, schg := d.schg + 1, tchg := BitVec.ofNat 64 tick }

/-- The crews of a site in a stage. -/
def State.siteCrews (s : State) (site : Nat) (ok : CrewSt → Bool) : List Nat :=
  (s.crews.filter (fun p => p.2.site == site && ok p.2.st)).map (fun p => p.1)

/-- The READY items of a class re-evaluated, and crews not yet started put back, when a site has left ready (R347, R351). -/
def State.leaveReady (s : State) (site : Nat) : State :=
  let t := (s.siteCrews site (fun c => c == .loading)).foldl (fun (u : State) k =>
    if (u.crew k).isMailbox then u else u.undispatch k) s
  t.reclass (t.siteDisc site).cls.toNat

/-- The routing table as firmware writes it round some sites, which forward nothing (R12). DESIGN CHOICE (log 80). -/
def State.routeRound (s : State) (out : List Nat) : State :=
  { s with fabric := (List.range 864).map (fun k => (k, (Config.fabricRoute out (k / 32) (k % 32)).filter (fun x => !out.contains x))) }

/-- The sites that are absent. -/
def State.absentSites (s : State) : List Nat := (List.range 27).filter (fun i => (s.siteDisc i).st == .absent)

/-- The microcode of the running firmware image taken by a site that leaves calibrating for ready, with its version (R420). -/
def State.takeMicrocode (s : State) (site : Nat) : State :=
  let g := s.mgmt
  { s.setDisc site { s.siteDisc site with fwver := Config.imageFw g.image site } with
    mgmt := { g with ucode := g.ucode.set site (Config.imageMicrocode g.image site) } }

/-- A site's state changed, with what follows from leaving ready and from becoming ready (R347, R353). The routing table leaves a site out
before it is absent (R12), and a site whose calibration has ended takes the running firmware's microcode (R420). -/
def State.changeSite (s : State) (site : Nat) (to_ : SiteSt) : State :=
  let s := if to_ = .absent then s.routeRound (insertNat site s.absentSites) else s
  let s := if (s.siteDisc site).st = .calibrating ∧ to_ = .ready then s.takeMicrocode site else s
  let d := s.siteDisc site
  let t := s.setDisc site (d.change to_ s.tick)
  let t := match to_ with
    | .draining => t
    | _ => { t with drains := t.drains.erase site, forced := t.forced.filter (fun x => x != site) }
  if d.st = .ready then t.leaveReady site else if to_ = .ready then t.reclass d.cls.toNat else t

/-- The fault of a crew on a site whose drain is forced (R423). DEDUCED (log 62). -/
def drainFault (site : Nat) : FaultInfo :=
  { code := cENGINE, src := 2, more := false, slot := 0, bidx := 0, detail := 0, handle := 0, estat := 0x401, esite := site, eng := 0,
    cidxq := 0, pidxv := 0 }

/-- A crew on a site whose drain is forced: it freezes, and its node is FAULTED by the drain. -/
def State.drainCrew (s : State) (site k : Nat) : State :=
  match s.crews.find k with
  | none => s
  | some c =>
    let f := drainFault site
    if c.isMailbox then s.mailboxFault (c.cores.headD 0) k f
    else
      let n := s.node c.node
      let t := if n.st = .faulted then s.setNode c.node { n with fault := some f, faultCore := c.cores.headD 0 } else s
      t.nodeFault (c.cores.headD 0) k c.node f

/-- Every engine of a site stopped between two interruption units. DEDUCED (log 62). -/
def State.stopSite (s : State) (site : Nat) : State :=
  ((s.engines.filter (fun p => engSite p.1 == site)).map (fun p => p.1)).foldl (fun (t : State) e =>
    match (t.eng e).cur with
    | some c => t.stopEngine e c.main.ent.part
    | none => t) s

/-- A drain that firmware forces (R423). DEDUCED (log 62). -/
def State.forceDrain (s : State) (site : Nat) : State :=
  let d := s.siteDisc site
  let t := if d.st = .ready then s.changeSite site .draining else s
  if (t.siteDisc site).st = .draining ∧ site ∉ t.forced then
    let t := { t with forced := site :: t.forced }
    let t := t.stopSite site
    (t.siteCrews site (fun _ => true)).foldl (fun (u : State) k => u.drainCrew site k) t
  else t

/-- SITE_STATE_CHANGE (R353): a transition of the table; a site that fails has its drain forced first. -/
def execSiteStateChange (site : BitVec 5) (to_ : SiteSt) (s : State) : Host.Outcome State Fault Refusal :=
  let n := site.toNat
  let d := s.siteDisc n
  if !siteMove n d.st to_ || decide (27 ≤ n) || (to_ == .fenced && d.st == .draining && !s.siteIdle n) then .next s
  else if to_ = .absent then .next ((if n < 24 then s.forceDrain n else s).changeSite n .absent)
  else .next (s.changeSite n to_)

/-- DRAIN_COMPLETE (R353, R423): a draining site that is idle is fenced. -/
def execDrainComplete (site : BitVec 5) (s : State) : Host.Outcome State Fault Refusal :=
  let n := site.toNat
  if (s.siteDisc n).st = .draining ∧ s.siteIdle n then .next (s.changeSite n .fenced) else .next s

/-- Where the bytes of a boot-flash slot lie in memory (log 6). -/
def flashBase (b : Bool) : Nat := 4 * 2 ^ 64 + b2n b * 2 ^ 40

/-- The bytes of a boot-flash slot, to the last that is not 0. -/
def State.flash (s : State) (b : Bool) : List Byte :=
  let lo := flashBase b
  let hi := (s.mem.filter (fun c => decide (lo ≤ c.1) && decide (c.1 < lo + 2 ^ 40))).foldl (fun (m : Nat) c => max m (c.1 + 1)) lo
  Memory.readN s.mem lo (hi - lo)

/-- CALIBRATION_DONE (R353, R420): a calibrating site that passes is ready, and takes the microcode of the firmware that now runs. -/
def execCalibrationDone (site : BitVec 5) (pass : Bool) (s : State) : Host.Outcome State Fault Refusal :=
  let n := site.toNat
  if (s.siteDisc n).st ≠ .calibrating then .next s else .next (s.changeSite n (if pass then .ready else .fenced))

/-- FORCED_DRAIN (R423). -/
def execForcedDrain (site : BitVec 5) (s : State) : Host.Outcome State Fault Refusal :=
  let t := { s with errored := s.errored.filter (fun n => n != site.toNat) }
  if site.toNat < 24 then .next (t.forceDrain site.toNat) else .next s

/-! ## Power and heat (R20, R21, R424) -/

/-- The compute classes by code. -/
def computeCls (k : Nat) : Cls := match k with
  | 0 => .dmx
  | 1 => .spx
  | 2 => .vec
  | _ => .srt

/-- The budget of one chiplet of a compute class in milliwatts (R20). -/
def classBudget (k : Nat) : Nat := match k with
  | 0 => 220000
  | 1 => 110000
  | 2 => 90000
  | _ => 50000

/-- The clock that the governor has chosen for a compute class, in units of 100 MHz. -/
def Governor.clock (g : Governor) (k : Nat) : Nat := match k with
  | 0 => g.set.dmx.toNat
  | 1 => g.set.spx.toNat
  | 2 => g.set.vec.toNat
  | _ => g.set.srt.toNat

/-- The governor with one class's clock chosen anew: it runs from the next slot on, between two bundles (R22). -/
def Governor.setClock (g : Governor) (k v : Nat) : Governor :=
  let x := BitVec.ofNat 5 v
  match k with
  | 0 => { g with set := { g.set with dmx := x } }
  | 1 => { g with set := { g.set with spx := x } }
  | 2 => { g with set := { g.set with vec := x } }
  | _ => { g with set := { g.set with srt := x } }

/-- A class one step slower, never below 1.5 GHz. -/
def Governor.lower (g : Governor) (k : Nat) : Governor :=
  if 15 < g.clock k then { g.setClock k (g.clock k - 1) with lowered := computeCls k :: g.lowered } else g

/-- The last step down taken back. -/
def Governor.raise (g : Governor) : Governor :=
  match g.lowered with
  | [] => g
  | c :: r => { g.setClock c.code (g.clock c.code + 1) with lowered := r }

/-- How far a class's measured power stands above the sum of its chiplets' budgets, in the k-th measurement. -/
def State.excess (s : State) (k : Nat) : Int :=
  (Config.classPower s.draws k : Int) - classBudget k * ((List.range 16).filter (fun i => s.cls i == computeCls k)).length

/-- The class to slow: of those above 1.5 GHz the one that stands furthest above its budgets, or, with none above, least below them; the
lowest class code among equals (R21). DESIGN CHOICE (log 65). -/
def State.slowClass (s : State) : Option Nat :=
  ((List.range 4).filter (fun k => decide (15 < s.governor.clock k))).foldl (fun (b : Option Nat) k =>
    match b with
    | none => some k
    | some j => if s.excess j < s.excess k then some k else b) none

/-- The governor after a tick of measured power: the count of consecutive ticks below 95 % of the cap of 3.2 kW, and at 100 of them the
last step taken back and the count begun anew (R21). DESIGN CHOICE (log 65). -/
def Governor.tickBelow (g : Governor) (p : Nat) : Governor :=
  if 3200000 * 95 ≤ p * 100 then { g with below := 0 }
  else if g.below + 1 < 100 then { g with below := g.below + 1 }
  else { g.raise with below := 0 }

/-- GOVERNOR_STEP (R21): power is measured in every tick; at each 1,000th, power above the cap slows one class; 100 consecutive ticks
below 95 % of the cap take the last step back. DESIGN CHOICE (log 65). -/
def execGovernorStep (s : State) : Host.Outcome State Fault Refusal :=
  let p := Config.power s.draws
  let t := { s with draws := s.draws + 1, governor := { s.governor.tickBelow p with power := p } }
  if s.tick % 1000 = 0 ∧ 3200000 < p then
    match s.slowClass with
    | some k => .next { t with governor := t.governor.lower k }
    | none => .next t
  else .next t

/-- A partition ended (R65 KILL): its instances are aborted with no completion, its queues emptied, its COPY packets dropped, and the
buffers of its region control blocks reclaimed. -/
def State.killPart (s : State) (p : Nat) : State :=
  let t := ((s.insts.filter (fun i => i.2.part == p)).map (fun i => i.1)).foldl (fun (u : State) i => u.abortGraph i none) s
  let t : State := t.modPart p (fun x =>
    { x with suspended := false, cutting := false
             queues := x.queues.map (fun q => (q.1, { q.2 with st := .running, before := .running, pkts := [] })) })
  let mine : QEnt → Bool := fun q => match q.pkt with
    | some (a, _, _) => a == p
    | none => false
  let t : State := { t with engines := t.engines.map (fun (e : Nat × Engine) => (e.1,
    { e.2 with queue := e.2.queue.filter (fun q => !mine q), off := e.2.off.filter (fun q => !mine q),
               cur := (match e.2.cur with | some x => if mine x.main.ent then none else some x | none => none),
               saved := e.2.saved.filter (fun x => !mine x.main.ent) })) }
  ((t.rcbs.filter (fun (r : Nat × Rcb) => r.1 != 0 && r.2.level != 0 && r.2.part.toNat == p)).map (fun (r : Nat × Rcb) => r.1)).foldl
    (fun (u : State) i => u.reclaimOwned i) t

/-- The package shut down (R424): every partition is killed, and the hosts see a surprise link-down. DESIGN CHOICE (log 58). -/
def State.shutDown (s : State) : State :=
  { ((List.range 64).filter (fun p => (s.parts.find p).isSome)).foldl (fun (t : State) p => t.killPart p) s with hostLinkDown := true }

/-- A Foano port of a link chiplet in service retrained: one that is down comes up at 8 lanes or at 4, or stays down (R412, R414).
DESIGN CHOICE (log 82). -/
def State.retrainPort (s : State) (n : Nat) : State :=
  let site := 25 + n / 8
  let f := s.foano.get n Foano.zero
  if 16 ≤ n ∨ f.lanes ≠ 0 ∨ (s.siteDisc site).st ≠ .ready then s
  else
    let d := s.draw 3
    if d.1 = 0 then d.2
    else
      let e := d.2.siteDisc site
      { d.2.setDisc site { e with units := putFld e.units (n % 8) 1 1 } with foano := d.2.foano.set n { f with lanes := 4 * d.1, replay := 0, wire := 0 } }

/-- A chiplet's report of its junction temperature, which the limits act on as it stands at one (R424). -/
def State.heat (s : State) (site deg : Nat) : State :=
  let t := { s with temps := s.temps.set site deg }
  if 27 ≤ site then s
  else if 105 ≤ deg then t.front [.run Turn.zero (.thermalLimit (BitVec.ofNat 5 site) .hot)]
  else if 100 ≤ deg then t.front [.run Turn.zero (.thermalLimit (BitVec.ofNat 5 site) .warm)]
  else t

/-- THERMAL_LIMIT (R424): at 100 degrees C the chiplet's class is slowed; at 105 a compute chiplet's drain is forced, and any other
chiplet shuts the package down. -/
def execThermalLimit (site : BitVec 5) (limit : Thermal) (s : State) : Host.Outcome State Fault Refusal :=
  let n := site.toNat
  if 27 ≤ n then .next s
  else
    match limit with
    | .warm => if n < 16 then .next { s with governor := s.governor.lower (s.cls n).code } else .next s
    | .hot => if n < 16 then .next (s.forceDrain n) else .next s.shutDown

/-! ## The boot mailbox (R47, R48) -/

/-- The latency-table version that the discovery table reports for a class (R139, R352). -/
def State.ltvOf (s : State) (cls : Nat) : BitVec 8 :=
  match (List.range 16).find? (fun i => (s.siteDisc i).cls.toNat == cls && (s.siteDisc i).ltv != 0) with
  | some i => (s.siteDisc i).ltv
  | none => 1

/-- Whether the 30 bits of a slot name the LAC unit, as the destination or in a result window (R120): an empty slot names nothing. -/
def slotNamesLac (bits : Nat) : Bool :=
  match unpack [1, 4, 5, 7, 2, 11] bits with
  | [ginv, gpred, dfu, _, kind, sdata] =>
    !(ginv == 1 && gpred == 0) && (dfu == FU.id .lac || (kind == 1 && sdata / 64 == FU.id .lac))
  | _ => false

/-- Whether a move of a bundle names the LAC unit (R45, R201), whatever else of the bundle is illegal. The words of a long immediate are
no moves (R108). -/
def bundleNamesLac (w : Bits256) : Bool :=
  match unpack [4, 252] w.toNat with
  | [fmt, _] =>
    let bits := slotBits w.toNat
    decide (fmt < 4) && (if fmt = 1 ∨ fmt = 3 then bits.take 3 ++ bits.drop 5 else bits).any slotNamesLac
  | _ => false

/-- Whether an overlay's code names LAC (R45, R201). -/
def OverlayImg.namesLac (o : OverlayImg) : Bool := o.code.any (fun p => bundleNamesLac p.2)

/-- Whether the prog names of a set of images do not resolve: one unknown, of the wrong class, or defined in more than one image (R356
REASON 6). -/
def badNames (ims : List Image) : Bool :=
  decide (¬(ims.flatMap (fun i => i.defs)).Nodup) ||
    ims.any (fun i => i.uses.any (fun u => ims.all (fun j => !(j.cls == u.1 && j.defs.contains u.2))))

/-- The overlay of the one node of a mailbox image, when the image passes the loader's check for a core. -/
def State.mailboxOverlay (s : State) (n : Nat) : Option (OverlayImg × Nat) :=
  match s.mailboxImage n with
  | none => none
  | some im =>
    let cls := (s.coreCls n).code
    if im.cls.toNat ≠ cls ∨ badNames [im] ∨ im.nodes.length ≠ 1 ∨ im.ltv ≠ s.ltvOf cls ∨
        im.overlays.any (fun o => decide (8192 < o.size) || (decide (cls ≠ 2) && o.namesLac)) then none
    else
      match im.nodes with
      | d :: _ =>
        (match (prefList d.prefWord).find? (fun f => f.cls.toNat == cls) with
         | some f => (im.overlays[f.prog.toNat]?).map (fun o => (o, f.prog.toNat))
         | none => none)
      | [] => none

/-- A boot-mailbox strand's load begun: a crew of one under the root. DEDUCED (log 56). -/
def State.mailboxLoad (s : State) (n : Nat) (im : OverlayImg) (prog : Nat) : State :=
  let k := s.newCrew
  let c : Crew :=
    { Crew.zero with
      node := 0xFFFF, rcb := 0, site := siteOf n, cores := [n], st := .loading, prog := prog }
  let o : Overlay :=
    { part := 0, slot := mailboxSlot, prog := prog, image := 0, sgen := 0, size := im.size, code := im.code, consts := im.consts,
      vshape := im.vshape, vconf := im.vconf, trap := im.trap, entry := im.entry, last := 0, bad := [] }
  let t := (k.2.setCrew k.1 c).pin (siteOf n) k.1 (hBid (s.core n).mbImg)
  let t := t.modCore n (fun x =>
    { { x with overlays := x.overlays.filter (fun y => y.slot != mailboxSlot) }.install o t.stamp with mbState := 1 })
  { t with stamp := t.stamp + 1 }

/-- GO (R48): firmware starts a strand on a core through its boot mailbox. -/
def execGo (core : BitVec 8) (s : State) : Host.Outcome State Fault Refusal :=
  let n := core.toNat
  let st := (s.core n).mbState
  let old := (s.crews.filter (fun p => p.2.isMailbox && p.2.cores.contains n)).map (fun p => p.1)
  let t := if st = 4 then old.foldl (fun (u : State) k => u.abortCrew k) s else s
  if !s.isCore n then .next s
  else if st = 1 ∨ st = 2 ∨ t.crews.any (fun p => p.2.st != .out && p.2.cores.contains n) then
    .next (s.modCore n (fun c => { c with mbState := 5 }))
  else
    let t := t.settleView (t.core n).mbImg
    match t.mailboxOverlay n with
    | none => .next (t.modCore n (fun c => { c with mbState := 5 }))
    | some x => .next (t.mailboxLoad n x.1 x.2)

/-! ## Region control blocks (R358) -/

/-- The RW fields of one word of an RCB written (R358). DEDUCED (log 49). -/
def Rcb.writeWord (r : Rcb) (i : Nat) (w : Word) : Rcb :=
  match i with
  | 0 =>
    { r with
      inh := BitVec.ofNat 5 (fld w 51 5)
      prio := BitVec.ofNat 3 (fld w 45 3)
      ceil := if r.level = 1 then BitVec.ofNat 3 (fld w 42 3) else r.ceil
      policy := if fld w 40 2 = 3 then r.policy else BitVec.ofNat 2 (fld w 40 2) }
  | 1 => { r with budget := BitVec.ofNat 32 (fld w 32 32) }
  | 2 => { r with binq := BitVec.ofNat 32 (fld w 32 32) }
  | 3 => { r with age := BitVec.ofNat 14 (max 10 (min 10000 (fld w 0 14))) }
  | _ => r

/-- The RW fields of an RCB written (R358). -/
def Rcb.write (r : Rcb) (w0 w1 w2 w3 : Word) : Rcb := (((r.writeWord 0 w0).writeWord 1 w1).writeWord 2 w2).writeWord 3 w3

/-- A changed BINQ compared with its occupancy (R336). -/
def State.spillRcb (s : State) (i : Nat) : State :=
  if (s.rcb i).inherits 1 then s
  else
    s.spillCap ((s.rcb i).binq.toNat * 64) (fun u => (u.rcb i).binused.toNat)
      (fun u p => (u.path (u.region p.2.region).orcb).contains i)

/-! ## Hosts (R410, R411) -/

/-- A refused aperture access counted; a read completes as an Unsupported Request (R411). -/
def Part.refuse (p : Part) (wr : Bool) : Part :=
  let x := { p with aperr := satInc p.aperr }
  if wr then x else { x with hostRead := [], hostStatus := 1 }

/-- A host's read completed: its bytes, and whether its completion is poisoned (R231). -/
def Part.answer (p : Part) (bs : List Byte) (bad : Bool) : Part := { p with hostRead := bs, hostStatus := if bad then 2 else 0 }

/-- The bytes of a host's read: those of a poisoned granule read all ones (R231). DEDUCED (log 54). -/
def State.hostBytes (s : State) (a n : Nat) : List Byte :=
  (List.range n).map (fun i => if s.bufPoisoned (a + i) 1 then 0xFF else Memory.read s.mem (a + i))

/-- A host's write as the MEMs make it; what a lost extent or a fenced MEM holds is not changed (log 4). DESIGN CHOICE (log 31).
DEDUCED (log 54). -/
def State.hostWrite (s : State) (a : Nat) (bs : List Byte) : State :=
  let t := s.openAccess a bs.length
  t.writeBufRaw ((Memory.cellsAt a bs).filter (fun c =>
    let k := t.extAt c.1
    !((t.ext k).st == .lost) && t.memServes (extMem k)))

/-- APERTURE_ACCESS (R411): a host's read or write of up to 64 bytes through a partition's aperture. -/
def execApertureAccess (part : BitVec 6) (wr : Bool) (off : BitVec 30) (bytes : BitVec 7) (data : Bits512) (s : State) :
    Host.Outcome State Fault Refusal :=
  let p := part.toNat
  let x := s.part p
  let n := min bytes.toNat 64
  let h := x.exportAt x.axi.toNat
  let o : Nat := x.abase.toNat * 2 ^ 30 + off.toNat
  if n = 0 then .next s
  else if (s.hubCap p h (o : Int) n (if wr then .w else .r)).isSome ∨ windowBid ≤ hBid h then .next (s.modPart p (fun y => y.refuse wr))
  else if wr then .next (s.hostWrite (hAddr h o) (toBytes data.toNat n))
  else
    let t := s.openAccess (hAddr h o) n
    .next (t.modPart p (fun y => y.answer (t.hostBytes (hAddr h o) n) (t.bufPoisoned (hAddr h o) n)))

/-- A management mailbox, and it changed. -/
def Mgmt.box (g : Mgmt) (b : Nat) : Mailbox := g.boxes.get b Mailbox.zero
/-- A management mailbox changed. -/
def Mgmt.modBox (g : Mgmt) (b : Nat) (f : Mailbox → Mailbox) : Mgmt := { g with boxes := g.boxes.set b (f (g.box b)) }

/-- A register of a management mailbox written; there are three. -/
def State.writeBox (s : State) (b : Nat) (f : Mailbox → Mailbox) : State :=
  if b < 3 then { s with mgmt := s.mgmt.modBox b f } else s

/-- A register that hub firmware alone can write: a write by anybody else is ignored (R47). -/
def State.ifFirmware (s : State) (t : State) : Host.Outcome State Fault Refusal := .next (if s.turn.fw then t else s)

/-- REGISTER_WRITE (R5, R27, R47, R356, R359, R363, R409, R410, R425): the fields of Access RW take the value; RO and HW fields ignore it.
A command is started by its own step, so the words that would start one are not registers here. The boot mailboxes, the root's block
and a partition's default key, which is a slot that it may use (R360), are firmware's alone. -/
def execRegisterWrite (r : OutReg) (v : Word) (s : State) : Host.Outcome State Fault Refusal :=
  match r with
  | .cw p i => if i = 7 then .next s else .next (s.modPart p.toNat (fun x => { x with cw := x.cw.set i.toNat v }))
  | .fsel p => .next (s.modPart p.toNat (fun x => { x with fsel := BitVec.ofNat 15 (fld v 0 15) }))
  | .fcnt _ => .next s
  | .aperture p => .next (s.modPart p.toNat (fun x => { x with axi := BitVec.ofNat 16 (fld v 48 16), abase := BitVec.ofNat 18 (fld v 30 18) }))
  | .apcount _ => .next s
  | .rtpl0 p i =>
    .next (s.modPart p.toNat (fun x => { x with slots := x.slots.set i.toNat { x.slot i.toNat with rtpl0 := v &&& 0x00F8E30000003FFF } }))
  | .rtpl1 p i => .next (s.modPart p.toNat (fun x => { x with slots := x.slots.set i.toNat { x.slot i.toNat with rtpl1 := v } }))
  | .qdesc0 p q => .next (s.modQueue p.toNat q.toNat (fun d => { d with job := BitVec.ofNat 15 (fld v 0 15) }))
  | .qdesc1 p q => .next (s.modQueue p.toNat q.toNat (fun d => { d with csx := BitVec.ofNat 16 (fld v 48 16), csoff := BitVec.ofNat 48 (fld v 0 48) }))
  | .mw b i => if i = 7 then .next s else .next (s.writeBox b.toNat (fun x => { x with mw := x.mw.set i.toNat v }))
  | .mdata b i => .next (s.writeBox b.toNat (fun x => { x with mdata := x.mdata.set i.toNat v }))
  | .mstate => .next s
  | .mbimg c => s.ifFirmware (s.modCore c.toNat (fun x => { x with mbImg := v }))
  | .mbarg c => s.ifFirmware (s.modCore c.toNat (fun x => { x with mbOff := BitVec.ofNat 48 (fld v 0 48) }))
  | .mbctl c => s.ifFirmware (if v.getLsbD 0 then s.front [.run Turn.zero (.go c)] else s)
  | .discovery _ _ => .next s
  | .rootRcb w => s.ifFirmware ((s.setRcb 0 ((s.rcb 0).writeWord w.toNat v)).spillRcb 0)
  | .defaultKey p =>
    s.ifFirmware (if s.keyUsable p.toNat (fld v 0 11) then s.modPart p.toNat (fun x => { x with key := BitVec.ofNat 11 (fld v 0 11) }) else s)

end Sys2Proof.Machine
end

