-- ==== Sys2Proof/Machine/Links.lean ====
section
/-! DEFINITION. The links: the Foano ports (R412), the fabric links (R11, R422) and what arrives from a peer package (R308, R413, R414). -/

namespace Sys2Proof.Machine

/-- FLIT_RETRY (R412): a flit of a port's replay buffer fails its CRC, which one is a free value, and it and those behind it are sent again
(go-back-N); delivery stays in order and exactly once. -/
def execFlitRetry (port : BitVec 4) (s : State) : Host.Outcome State Fault Refusal :=
  let f := s.port port.toNat
  let d := s.draw (f.wire + 1)
  .next { d.2 with foano := d.2.foano.set port.toNat { f with wire := d.1 } }

/-- The bit of a port in its link chiplet's UNITS cleared (R352, R412). -/
def State.dropPort (s : State) (port : Nat) : State :=
  let site := 25 + port / 8
  let d := s.siteDisc site
  s.setDisc site { d with units := putFld d.units (port % 8) 1 0 }

/-- LANE_RETRAIN (R412): a lane fails retraining: 8 lanes become 4, and a port that cannot run 4 goes down. -/
def execLaneRetrain (port : BitVec 4) (s : State) : Host.Outcome State Fault Refusal :=
  let n := port.toNat
  let f := s.port n
  let lanes := if f.lanes = 8 then 4 else 0
  let t := { s with foano := s.foano.set n { f with lanes := lanes, replay := if lanes = 0 then 0 else f.replay, wire := if lanes = 0 then 0 else f.wire } }
  .next (if lanes = 0 then t.dropPort n else t)

/-- A site none of whose links runs goes absent (R422). -/
def State.siteCutOff (s : State) (site : Nat) : State :=
  if (s.siteDisc site).st ≠ .absent ∧ (linksOfSite site).all (fun l => s.linksDown.contains l) then
    (if site < 24 then s.forceDrain site else s).changeSite site .absent
  else s

/-- UCIE_LINK_RETRAIN (R11, R422): a fabric link is retrained; when that fails the link is down, and a site that cannot retrain goes
absent. -/
def execUcieLinkRetrain (link : BitVec 6) (ok : Bool) (s : State) : Host.Outcome State Fault Refusal :=
  let l := link.toNat
  if 49 ≤ l then .next s
  else if ok then .next { s with linksDown := s.linksDown.filter (fun x => x != l) }
  else
    let e := fabricLinks.getD l (0, 0)
    let t := { s with linksDown := insertNat l s.linksDown }
    .next ((t.siteCutOff e.1).siteCutOff e.2)

/-- Whether a unit from a peer is accepted (R308, R414): this package and the peer are members, and the buffer's entry is live, of the
handle's generation and with right W over the bytes and the signal. -/
def State.collAccepts (s : State) (u : CollUnit) : Bool :=
  let h := u.handle
  let b := s.buf (hBid h)
  let len := viewLen (hView h) b.size
  s.mgmt.indom && !s.left.contains u.peer.toNat && h != 0 && decide (hBid h < windowBid) && b.state == 1 && b.gen.toNat == hGen h &&
    hasRight h .w && decide (u.doff.toNat + u.data.length ≤ len) && (!u.rsen || decide (u.rsoff.toNat + 8 ≤ len)) &&
    (!u.acc || !s.bufPoisoned (hAddr h u.doff.toNat) u.data.length)

/-- The bytes that a unit leaves at its place (R303, R308). -/
def State.collBytes (s : State) (u : CollUnit) (a : Nat) : List Byte :=
  if u.acc then
    accRow (etypeOf u.type.toNat) u.op.toNat (plainMode u.rnd.toNat) false (Memory.readN s.mem a u.data.length) u.data
  else u.data

/-- COLL_ARRIVAL (R308, R413, R414): a unit from a peer is written or accumulated at the MEMs, and then its signal is raised; one that a
check refuses changes nothing. -/
def execCollArrival (u : CollUnit) (s : State) : Host.Outcome State Fault Refusal :=
  if s.collAccepts u then
    let a := hAddr u.handle u.doff.toNat
    let t := s.openAccess a u.data.length
    let t := t.hostWrite a (t.collBytes u a)
    .next (if u.rsen then t.signalPut (hAddr u.handle u.rsoff.toNat) false 1 else t)
  else .next s

end Sys2Proof.Machine
end

