-- ==== Sys2Proof/Machine/Owner.lean ====
section
/-! DEFINITION. What a partition's owner does through the command page (R65, R409), and the two acts of firmware on a partition, MASK_WRITE
(R27, R218) and PARTITION_PORT_MOVE (R407). The turn names the partition. -/

namespace Sys2Proof.Machine

/-! ## Commands -/

/-- A command completed (R409): BUSY cleared, STATUS written, MSI-X vector 2 raised. -/
def State.cmdDone (s : State) (p status : Nat) : State :=
  s.modPart p (fun x => { x with busy := false, status := BitVec.ofNat 16 status, msix := x.msix ||| 4 })

/-- A command's meaning: its status and the state it makes. -/
def command (f : State → Nat → Nat × State) (s : State) : Host.Outcome State Fault Refusal :=
  let p := s.turn.part
  let r := f s p
  .next (r.2.cmdDone p r.1)

/-- A result word. -/
def State.result (s : State) (p i : Nat) (v : Word) : State := s.modPart p (fun x => { x with cw := x.cw.set i v })

/-! ## Acts on faulted nodes (R65) -/

/-- Why a command may not act on a node: BAD_CMD, DENIED or NOT_FAULTED; 0 when it may. -/
def State.nodeStatus (s : State) (p : Nat) (node : Word) : Nat :=
  let k := node.toNat
  if 65536 ≤ k then 9
  else
    match s.nodes.find k with
    | none => 1
    | some n => if s.nodePart n ≠ p then 8 else if n.st ≠ .faulted then 1 else 0

/-- A core of a crew that goes on after a fault: a context in the pre-emption slot comes back, every mark of a change 0 (R68, R176), and
issue resumes. -/
def Core.resume (c : Core) : Core :=
  let x := (c.preempt.map Ctx.clean).getD c.ctx
  let req : Option Stop := match c.stopReq with
    | some .cut => some .cut
    | _ => none
  let go : Core :=
    { c with ctx := x.unparkLongs false, preempt := none, preemptBad := false, badRestore := c.badRestore || (c.preemptBad && c.preempt.isSome),
             mode := x.resumeMode, stopReq := req }
  match c.mode with
  | .stopped => go
  | .drain .freeze => go
  | _ => { c with stopReq := req }

/-- A crew that goes on after its node's fault; under a cut it stops again before its first bundle (R66), and one switched out goes on when it is restored. -/
def State.resumeCrew (s : State) (k : Nat) : State :=
  let c := s.crew k
  if c.st = .faulted then
    let t := c.cores.foldl (fun (t : State) n => t.modCore n Core.resume) s
    let t := if s.underCut k then c.cores.foldl (fun (u : State) n => u.modCore n (fun x => x.askStop .cut)) t else t
    t.setCrew k { c with st := c.before }
  else if c.st = .out then
    { s with saved := s.saved.map (fun (g : Saved) =>
        if g.crew = k ∧ g.st = .faulted then { g with st := c.before, faulted := [] } else g) }
  else s

/-- The engines that an entry of a node had frozen go on with it (R65). -/
def State.thawEngines (s : State) (node p : Nat) : State :=
  let mine : Engine → Bool := fun e => e.saved.any (fun x => x.main.ent.node == node && x.main.ent.pkt.isNone)
  { s with engines := s.engines.map (fun (e : Nat × Engine) =>
      if mine e.2 then (e.1, { e.2 with frozenParts := e.2.frozenParts.filter (fun q => q != p) }) else e) }

/-- Whether a node's fault is that of a forced drain whose site is not ready again. -/
def State.stillDrained (s : State) (n : Node) : Option FaultInfo :=
  match n.fault with
  | some f => if f.src = 2 ∧ f.code = cENGINE ∧ (s.siteDisc f.esite).st ≠ .ready then some f else none
  | none => none

/-- The state in which a node goes on after a fault (R65, R345): SUSPENDED while a cut holds an instance of it; a grid node RUNNING once an
instance of it has been dispatched, and READY before that; another node the state from which it was frozen. -/
def State.nodeAfter (s : State) (k : Nat) (n : Node) : NodeSt :=
  let out := (s.crewsOf k).any (fun c => (s.crew c).st == .out)
  if out then .suspended
  else if n.grid then (if n.done.isEmpty ∧ (s.crewsOf k).isEmpty then .ready else .running)
  else if n.before = .suspended then (if (s.crewsOf k).any (fun c => (s.crew c).before == .draining) then .draining else .running)
  else n.before

/-- The released instances of a node that have no crew, have not retired and stand in no ready list enter one again. -/
def State.reenter (s : State) (k : Nat) : State :=
  let n := s.node k
  let waits : Nat × Nat → Bool := fun p =>
    n.released.contains (gridKey p.1 p.2) && !n.done.contains (gridKey p.1 p.2) &&
      s.ready.all (fun r => !(r.node == k && r.gx == p.1 && r.gy == p.2)) &&
      s.crews.all (fun c => !(c.2.node == k && !c.2.isMailbox && c.2.gx == p.1 && c.2.gy == p.2))
  (n.places.filter waits).foldl (fun (t : State) p => t.enterReady k p.1 p.2) s

/-- A faulted node resumed (R65): a strand fault's context comes back and its crews restart in one clock, frozen engines retry their
entry, NO_CLASS returns the node to READY, and frozen queues thaw. On a site whose drain was forced and that is not ready it faults
again (R423). -/
def State.resumeNode (s : State) (k : Nat) : State :=
  let n := s.node k
  match s.stillDrained n with
  | some f => s.front [.run { Turn.zero with core := n.faultCore, crew := (s.crewsOf k).headD 0, item := k, fault := some f } .fault]
  | none =>
    let noClass := n.fault.any (fun f => f.code == cNO_CLASS)
    let t := s.setNode k { n with st := s.nodeAfter k n, fault := none }
    let t := (t.crewsOf k).foldl (fun (u : State) c => u.resumeCrew c) t
    let t := (t.thawEngines k (s.nodePart n)).thawQueue (s.nodeQueue k)
    if noClass then t.reenter k else t

/-- RESUME (R65). -/
def execResume (node : Word) (s : State) : Host.Outcome State Fault Refusal :=
  command (fun t p => match t.nodeStatus p node with
    | 0 => (0, t.resumeNode node.toNat)
    | e => (e, t)) s

/-- The engine that a fault record names (R63 ENG, ESITE). -/
def faultEngine (f : FaultInfo) : Nat :=
  let num := f.eng % 32
  match f.eng / 32 with
  | 0 => (f.esite - 16) * 16 + num
  | 1 => 128 + f.esite * 8 + num
  | 2 => 256 + f.esite * 4 + num
  | 3 => 320 + f.esite * 4 + num
  | 4 => 384 + (f.esite - 16)
  | _ => 392 + (f.esite - 16)

/-- A faulting entry of a node completed with status FAILED (R65 SKIP): it has every effect of a completion. DEDUCED (log 40). -/
def State.skipEntry (s : State) (e k : Nat) : State :=
  let x := s.eng e
  match x.saved.find? (fun a => a.main.ent.node == k && a.main.ent.pkt.isNone) with
  | none => s
  | some a =>
    let rest := x.saved.eraseP (fun b => b.main.ent.node == k && b.main.ent.pkt.isNone)
    let t := (s.setEng e { x with cur := some a, saved := rest, frozenParts := x.frozenParts.filter (fun q => q != a.main.ent.part) }).completeEntry e
    let y := t.eng e
    (t.setEng e { y with cur := x.cur, saved := (match y.cur with | some b => [b] | none => []) ++ y.saved }).walkerIdle e

/-- A refused push skipped (R124, R65): the word completes FAILED without having been placed, and its strand goes on with the next
bundle. What else of the bundle is left out is the model's choice (DEDUCED, log 33). -/
def State.skipPush (s : State) (n : Nat) (f : FaultInfo) : State :=
  let d := f.detail
  let tag := fld d 46 6
  let x := (s.core n).ctx
  let t := s.modCtx n (fun y =>
    { y with pc := BitVec.ofNat 64 (f.bidx + 1), tags := if d.getLsbD 55 then putFld y.tags tag 1 1 else y.tags })
  if d.getLsbD 53 then
    t.modPart x.part (fun p =>
      p.event (BitVec.ofNat 64 (n % 256 + tag * 2 ^ 8 + x.nodeId.toNat * 2 ^ 16)) (BitVec.ofNat 64 s.tick))
  else t

/-- SKIP (R65): the fault of an engine is passed over; any other completes NOT_ENGINE. DEDUCED (log 33). -/
def execSkip (node : Word) (s : State) : Host.Outcome State Fault Refusal :=
  command (fun t p =>
    let k := node.toNat
    match t.nodeStatus p node with
    | 0 =>
      (match (t.node k).fault with
       | some f =>
         if f.src ≠ 1 then (2, t)
         else if f.eng = 7 * 2 ^ 5 then (0, (t.skipPush (t.node k).faultCore f).resumeNode k)
         else (0, (t.skipEntry (faultEngine f) k).resumeNode k)
       | none => (2, t))
    | e => (e, t)) s

/-- ABORT_NODE (R65). -/
def execAbortNode (node : Word) (s : State) : Host.Outcome State Fault Refusal :=
  command (fun t p => match t.nodeStatus p node with
    | 0 => (0, t.abortNode node.toNat)
    | e => (e, t)) s

/-- ABORT_GRAPH (R65) on the graph instance of an RCB. -/
def execAbortGraph (rcb : Word) (s : State) : Host.Outcome State Fault Refusal :=
  command (fun t p =>
    let i := rcb.toNat
    if 32768 ≤ i then (9, t)
    else
      match t.insts.find i with
      | none => (9, t)
      | some x => if x.part ≠ p then (8, t) else (0, t.abortGraph i (some 3))) s

/-- KILL (R65). -/
def execKill (s : State) : Host.Outcome State Fault Refusal := command (fun t p => (0, t.killPart p)) s

/-- SUSPEND (R66): the whole partition is cut. -/
def execSuspend (s : State) : Host.Outcome State Fault Refusal :=
  command (fun t p =>
    if (t.part p).suspended then (0, t)
    else (0, (t.modPart p (fun x => { x with suspended := true })).startCut p wholeScope)) s

/-- CONTINUE (R285): a suspended partition goes on; its gangs come back as their cores are free. -/
def execContinueCmd (s : State) : Host.Outcome State Fault Refusal :=
  command (fun t p => (0, (t.modPart p (fun x => { x with suspended := false })).releaseQueues p)) s

/-! ## Resident slots (R45, R139, R346, R356, R357) -/

/-- Whether a stencil is accepted (R346): some integers a and b make a dx + b dy positive for every offset. -/
def stencilOk (st : BitVec 24) : Bool :=
  let os := stencilOffsets st
  let r : List Int := (List.range 9).map (fun (i : Nat) => (i : Int) - 4)
  r.any (fun a => r.any (fun b => os.all (fun o => decide (0 < a * o.1 + b * o.2))))

/-- The image of an export index as LOAD reads it: none where it cannot be read as an image. -/
def State.loadImage (s : State) (p : Nat) (h : Handle) : Option Image :=
  let n := viewLen (hView h) (s.buf (hBid h)).size
  if (s.hubCap p h 0 n .r).isSome ∨ windowBid ≤ hBid h ∨ s.bufPoisoned (hAddr h 0) n then none
  else Config.parseImage (Memory.readN s.mem (hAddr h 0) n)

/-- The images of a LOAD, in order, or none where the set is malformed: a primary image first, companions of other classes with
overlays only, and no gap between them. DEDUCED (log 48). -/
def State.loadImages (s : State) (p : Nat) (hs : List Handle) : Option (List Image) :=
  let used := (hs.reverse.dropWhile (fun h => h == 0)).reverse
  let ims := used.map (fun h => if h = 0 then none else s.loadImage p h)
  if used.isEmpty ∨ ims.any Option.isNone then none
  else
    let xs := ims.filterMap id
    if decide (xs.map (fun i => i.cls)).Nodup && xs.tail.all (fun i => i.nodes.isEmpty && i.handles.isEmpty) &&
        xs.all (fun i => decide (i.handles.length ≤ 2040) && decide (i.nodes.length < 65536)) then some xs
    else none

/-- The reason for which images are refused before anything is pinned, 0 for none (R356), the codes tried in the order 1, 2, 3, 4, 6, after
5; the spec gives no order. DESIGN CHOICE (log 77). DEDUCED (log 48). -/
def State.imageReason (s : State) (ims : List Image) : Nat :=
  if ims.any (fun i => i.cls != 2 && i.overlays.any (fun o => o.namesLac)) then 1
  else if ims.any (fun i => i.overlays.any (fun o => decide (8192 < o.size))) then 2
  else if ims.any (fun i => i.ltv != s.ltvOf i.cls.toNat) then 3
  else if ims.any (fun i => i.nodes.any (fun n => n.grid && !stencilOk n.stencil)) then 4
  else if badNames ims then 6
  else 0

/-- The pinned buffers of a slot allocated under the partition's RCB and filled: their handles, 0 for a handoff entry, or none where one
is refused. -/
def State.slotBufs (s : State) (p : Nat) : List HandleDesc → Option (List Handle × State)
  | [] => some ([], s)
  | d :: ds =>
    if d.handoff then (s.slotBufs p ds).map (fun r => (0 :: r.1, r.2))
    else
      let size := BitVec.ofNat 64 d.size
      if s.allocReason size d.attr (partRcb p) p none ≠ 0 then none
      else
        let m := s.allocMake size d.attr (partRcb p) p
        let bid := hBid m.1.1
        let t := (m.2.writeBufRaw (d.data.map (fun c => (bufAddr bid c.1, c.2)))).pinExtents bid true
        (t.slotBufs p ds).map (fun r => (m.1.1 :: r.1, r.2))

/-- A slot after a refused LOAD. -/
def Slot.refuse (x : Slot) (reason : Nat) : Slot :=
  { Slot.zero with state := 4, reason := BitVec.ofNat 5 reason, sgen := x.sgen + 1, rcnt := x.rcnt, rtpl0 := x.rtpl0, rtpl1 := x.rtpl1 }

/-- A partition's slot set. -/
def State.setSlot (s : State) (p k : Nat) (x : Slot) : State := s.modPart p (fun y => { y with slots := y.slots.set k x })

/-- A slot whose images have passed every check: its buffers are allocated and pinned, and it is PINNED, or REFUSED where they are not.
DEDUCED (log 48). -/
def State.pinSlot (s : State) (p k : Nat) (x : Slot) (hs : List Handle) (ims : List Image) : State :=
  let descs : List HandleDesc := match ims with
    | [] => []
    | im :: _ => im.handles
  match s.slotBufs p descs with
  | none => s.setSlot p k (x.refuse 7)
  | some r =>
    let t := (hs.filter (fun h => h != 0)).foldl (fun (u : State) h => u.pinExtents (hBid h) true) r.2
    let g : List NodeDesc := match ims with
      | [] => []
      | im :: _ => im.nodes
    t.setSlot p k
      { x with state := 2, reason := 0, nimg := BitVec.ofNat 8 ims.length, sgen := x.sgen + 1, nnode := BitVec.ofNat 16 g.length,
               nhand := BitVec.ofNat 16 descs.length, img0 := hs.getD 0 0, img1 := hs.getD 1 0, img2 := hs.getD 2 0, img3 := hs.getD 3 0,
               images := ims, bufs := r.1 }

/-- LOAD (R356, R357): the images are checked and the slot ends PINNED or REFUSED. -/
def execLoad (slot x0 x1 x2 x3 : Word) (s : State) : Host.Outcome State Fault Refusal :=
  command (fun t p =>
    let k := slot.toNat
    let x := (t.part p).slot k
    if 256 ≤ k ∨ (x.state ≠ 0 ∧ x.state ≠ 4) then (9, t)
    else
      let hs := [x0, x1, x2, x3].map (fun i => (t.part p).exportAt i.toNat)
      let t := hs.foldl (fun (u : State) h => u.settleView h) t
      match t.loadImages p hs with
      | none => (0, t.setSlot p k (x.refuse 5))
      | some ims =>
        (match t.imageReason ims with
         | 0 => (0, t.pinSlot p k x hs ims)
         | r => (0, t.setSlot p k (x.refuse r)))) s

/-- UNPIN (R32, R357). -/
def execUnpin (slot : Word) (s : State) : Host.Outcome State Fault Refusal :=
  command (fun t p =>
    let k := slot.toNat
    let x := (t.part p).slot k
    if 256 ≤ k then (9, t)
    else if x.state = 2 then (0, (t.setSlot p k { x with state := 3 }).settleSlot p k)
    else if x.state = 3 then (0, t)
    else (9, t)) s

/-! ## Buffers and exports -/

/-- HALLOC (R259, R409): an allocation under the partition's own RCB. -/
def execHalloc (size attr : Word) (s : State) : Host.Outcome State Fault Refusal :=
  command (fun t p =>
    match t.allocReason size attr (partRcb p) p none with
    | 0 =>
      let m := t.allocMake size attr (partRcb p) p
      (0, m.2.result p 0 m.1.1)
    | r => (10, t.result p 1 (BitVec.ofNat 64 r))) s

/-- An entry of the launch export table written; entry 0 ignores writes (R288). -/
def State.setExport (s : State) (p i : Nat) (h : Handle) : State :=
  if i = 0 then s else s.modPart p (fun x => { x with exports := x.exports.set i h })

/-- EXPORT (R287, R288, R409). DEDUCED (log 47). -/
def execExportCmd (idx handle : Word) (s : State) : Host.Outcome State Fault Refusal :=
  command (fun t p =>
    if 4096 ≤ idx.toNat then (9, t)
    else if (t.hubBase p handle).isSome ∨ windowBid ≤ hBid handle then (8, t)
    else (0, t.setExport p idx.toNat handle)) s

/-- The window handle of a launch queue (R287): right W only. -/
def windowHandle (p q : Nat) : Handle := mkHandle (windowBid + p * 16 + q) 0 4 0

/-- WEXPORT (R287, R409). -/
def execWexport (idx q : Word) (s : State) : Host.Outcome State Fault Refusal :=
  command (fun t p =>
    if 4096 ≤ idx.toNat ∨ 16 ≤ q.toNat ∨ !((t.part p).queue q.toNat).v then (9, t)
    else (0, t.setExport p idx.toNat (windowHandle p q.toNat))) s

/-- The holders of a buffer written (R252), at the shard and in its pinned copies. -/
def State.setHolders (s : State) (bid h1 h2 h3 : Nat) : State :=
  s.updBuf bid (fun b => { b with hold1 := h1, hold2 := h2, hold3 := h3 })

/-- HOLDWR (R252, R409): the further holders of a buffer that the partition owns. -/
def execHoldwr (x h1 h2 h3 : Word) (s : State) : Host.Outcome State Fault Refusal :=
  command (fun t p =>
    let h := (t.part p).exportAt x.toNat
    let b := t.buf (hBid h)
    if 4096 ≤ x.toNat ∨ 32768 ≤ h1.toNat ∨ 32768 ≤ h2.toNat ∨ 32768 ≤ h3.toNat then (9, t)
    else if h = 0 ∨ windowBid ≤ hBid h ∨ (t.hubBase p h).isSome ∨ b.orcb = 0 ∨ !t.rcbOfPart p b.orcb then (8, t)
    else (0, t.setHolders (hBid h) h1.toNat h2.toNat h3.toNat)) s

/-! ## Region control blocks and queues (R358, R359, R363) -/

/-- RCBWR (R358, R359). -/
def execRcbwr (idx w0 w1 w2 w3 : Word) (s : State) : Host.Outcome State Fault Refusal :=
  command (fun t p =>
    let i := idx.toNat
    let r := t.rcb i
    if 32768 ≤ i then (9, t)
    else if (r.level ≠ 1 ∧ r.level ≠ 2) ∨ r.part.toNat ≠ p then (8, t)
    else (0, (t.setRcb i (r.write w0 w1 w2 w3)).spillRcb i)) s

/-- JOBNEW (R359): a job of the partition, its fields at their reset values. DEDUCED (log 47). DEDUCED (log 49). -/
def execJobnew (s : State) : Host.Outcome State Fault Refusal :=
  command (fun t p =>
    if t.rcbFree then
      let r := t.newRcb
      let j : Rcb := { Rcb.zero with level := 2, part := BitVec.ofNat 6 p, state := 1, parent := BitVec.ofNat 15 (partRcb p) }
      (0, (r.2.setRcb r.1 j).result p 0 (BitVec.ofNat 64 r.1))
    else (4, t)) s

/-- Whether an RCB is a live job of a partition. DEDUCED (log 49). -/
def State.isJob (s : State) (p i : Nat) : Bool :=
  let r := s.rcb i
  r.level == 2 && r.part.toNat == p && r.state == 1

/-- JOBDEL (R359). -/
def execJobdel (idx : Word) (s : State) : Host.Outcome State Fault Refusal :=
  command (fun t p =>
    let i := idx.toNat
    if 32768 ≤ i then (9, t)
    else if !t.isJob p i then (8, t)
    else if (t.part p).queues.any (fun q => q.2.v && q.2.job.toNat == i) ∨ t.rcbs.any (fun r => r.2.level == 3 && r.2.parent.toNat == i)
    then (4, t)
    else (0, t.endRcb i 2)) s

/-- QCREATE (R363). DEDUCED (log 47). -/
def execQcreate (q w0 w1 : Word) (s : State) : Host.Outcome State Fault Refusal :=
  command (fun t p =>
    let k := q.toNat
    if 16 ≤ k then (9, t)
    else if ((t.part p).queue k).v then (6, t)
    else if !t.isJob p (fld w0 0 15) then (8, t)
    else
      (0, t.modQueue p k (fun _ =>
        { LaunchQ.zero with v := true, job := BitVec.ofNat 15 (fld w0 0 15), csx := BitVec.ofNat 16 (fld w1 48 16),
                            csoff := BitVec.ofNat 48 (fld w1 0 48) }))) s

/-- QDESTROY (R363). -/
def execQdestroy (q : Word) (s : State) : Host.Outcome State Fault Refusal :=
  command (fun t p =>
    let k := q.toNat
    if 16 ≤ k ∨ !((t.part p).queue k).v then (9, t)
    else if ((t.part p).queue k).pkts ≠ [] then (6, t)
    else (0, t.modQueue p k (fun _ => LaunchQ.zero))) s

/-! ## Sites, keys and records -/

/-- The partitions whose masks name a site (R353). -/
def State.siteOwners (s : State) (site : Nat) : List Nat :=
  if site < 16 then
    s.sharers (fun m => (List.range 16).any (fun i => s.isCore (site * 16 + i) && m.core.getLsbD (site * 16 + i)) ||
      (List.range 8).any (fun a => decide (a < arraysOf (s.cls site)) && m.array.getLsbD (site * 8 + a)) ||
      (s.cls site == .srt && (List.range 4).any (fun e => m.sort.getLsbD (site * 4 + e))))
  else if site < 24 then s.sharers (fun m => (List.range 16).any (fun e => m.copy.getLsbD ((site - 16) * 16 + e)))
  else []

/-- Why an owner may not ask for a change of a site, 0 when it may. -/
def State.siteStatus (s : State) (p : Nat) (site : Word) (need : SiteSt) : Nat :=
  let n := site.toNat
  if 27 ≤ n then 9
  else if 24 ≤ n then 11
  else if !(s.siteOwners n).contains p then 8
  else if (s.siteDisc n).st ≠ need then 11
  else 0

/-- DRAIN (R353, R423): the site drains once every owner whose masks name it has asked. -/
def execDrain (site : Word) (s : State) : Host.Outcome State Fault Refusal :=
  command (fun t p =>
    let n := site.toNat
    match t.siteStatus p site .ready with
    | 0 =>
      let d := t.drains.get n DrainReq.zero
      let d' : DrainReq := { parts := insertNat p d.parts, since := if d.parts.isEmpty then t.tick else d.since }
      let u := { t with drains := t.drains.set n d' }
      if (t.siteOwners n).all (fun q => d'.parts.contains q) then
        let v := u.changeSite n .draining
        (0, { v with drains := v.drains.set n { d' with since := t.tick } })
      else (0, u)
    | e => (e, t)) s

/-- RECAL (R353, R423). -/
def execRecal (site : Word) (s : State) : Host.Outcome State Fault Refusal :=
  command (fun t p => match t.siteStatus p site .fenced with
    | 0 => (0, t.changeSite site.toNat .calibrating)
    | e => (e, t)) s

/-- RETURN (R353, R423). -/
def execReturnCmd (site : Word) (s : State) : Host.Outcome State Fault Refusal :=
  command (fun t p => match t.siteStatus p site .fenced with
    | 0 => (0, t.changeSite site.toNat .ready)
    | e => (e, t)) s

/-- KEYREQ (R360, R409): the owner asks for key material, which comes by SPDM. -/
def execKeyreq (slot : Word) (s : State) : Host.Outcome State Fault Refusal :=
  command (fun t p =>
    let k := slot.toNat
    let x := t.keys.get k Key.zero
    if 2048 ≤ k then (9, t)
    else if x.valid ∧ x.part.toNat ≠ p then (8, t)
    else if x.nbuf ≠ 0 then (5, t)
    else (0, { t with keys := t.keys.set k { x with asked := true, part := BitVec.ofNat 6 p } })) s

/-- FREC (R62, R409): records freed from the head of the ring that FSEL shows. -/
def execFrec (n : Word) (s : State) : Host.Outcome State Fault Refusal :=
  command (fun t p =>
    let i := (t.part p).fsel.toNat
    let g := t.ring i
    if i = 0 ∨ !t.rcbOfPart p i then (8, t)
    else if g.recs.length < n.toNat then (9, t)
    else (0, { t with rings := t.rings.set i { recs := g.recs.drop n.toNat, head := g.head + BitVec.ofNat 6 n.toNat } })) s

/-! ## Firmware's acts on a partition -/

/-- Whether a partition has a crew on a core, or a saved context of it (R218). -/
def State.usesCore (s : State) (p n : Nat) : Bool := s.crews.any (fun c => c.2.part == p && c.2.cores.contains n)

/-- Whether a mask write would change the share of a core's scratch of a partition that uses the core, or take it away (R218). -/
def State.shareBusy (s t : State) (n : Nat) : Bool :=
  (s.sharers (fun m => m.core.getLsbD n)).any (fun q => s.usesCore q n &&
    (s.psmShare n q != t.psmShare n q || !(t.sharers (fun m => m.core.getLsbD n)).contains q))

/-- MASK_WRITE (R27, R218): firmware writes a partition's masks. Refused, with status SHARE_BUSY, where a bit names no core, where more
than eight partitions would share a core or an array (R222), or where the share of a partition in use would change. -/
def execMaskWrite (part : BitVec 6) (m : Masks) (s : State) : Host.Outcome State Fault Refusal :=
  let p := part.toNat
  let t := s.modPart p (fun x => { x with masks := m })
  let cores := List.range 256
  if cores.any (fun n => m.core.getLsbD n && !s.isCore n) ∨
      cores.any (fun n => m.core.getLsbD n && decide (8 < (t.sharers (fun k => k.core.getLsbD n)).length)) ∨
      (List.range 128).any (fun a => m.array.getLsbD a && decide (a % 8 < arraysOf (s.cls (a / 8))) &&
        decide (8 < (t.sharers (fun k => k.array.getLsbD a)).length)) ∨
      cores.any (fun n => s.shareBusy t n) then
    .next (s.modPart p (fun x => { x with status := 3 }))
  else
    .next { t with arrays := t.arrays.filter (fun a => a.1 % 64 != p || m.array.getLsbD (a.1 / 64)) }

/-- PARTITION_PORT_MOVE (R407): a partition moves to the other port only while no job or graph instance lives under it. -/
def execPartitionPortMove (part : BitVec 6) (port : Bool) (s : State) : Host.Outcome State Fault Refusal :=
  let p := part.toNat
  if s.rcbs.any (fun r => decide (2 ≤ r.2.level.toNat) && r.2.part.toNat == p) then .next (s.modPart p (fun x => { x with status := 4 }))
  else .next (s.modPart p (fun x => { x with port := port }))

end Sys2Proof.Machine
end

