-- ==== Sys2Proof/Machine/Rv32.lean ====
section
/-! DEFINITION. The hub's control processor (R417): an RV32IMC core that executes the code of the running firmware image in its tightly
coupled memory. The instruction set is RISC-V's own. PRESUMED (log 90). -/

namespace Sys2Proof.Machine

/-! ## Registers and tightly coupled memory -/

/-- A register of the control processor; x0 is 0. -/
def Ctl.reg (c : Ctl) (i : Nat) : BitVec 32 := if i = 0 then 0 else c.regs.get i 0

/-- A register of the control processor written; writes of x0 are discarded. -/
def Ctl.setReg (c : Ctl) (i : Nat) (v : BitVec 32) : Ctl := if i = 0 then c else { c with regs := c.regs.set i v }

/-- The size of the tightly coupled memory (R417). -/
def tcmSize : Nat := 2 ^ 18

/-- n bytes that the control processor reads at an address; what stands outside its memory the spec does not say, and is the free value
given. PRESUMED (log 90). -/
def Ctl.load (c : Ctl) (a n : Nat) (free : BitVec 32) : Nat :=
  ofBytes ((List.range n).map (fun i =>
    let k := (a + i) % 2 ^ 32
    if k < tcmSize then c.tcm.get k 0 else BitVec.ofNat 8 (fld free (8 * i) 8)))

/-- Bytes that the control processor writes at an address; outside its memory nothing of the model changes. PRESUMED (log 90). -/
def Ctl.store (c : Ctl) (a : Nat) (bs : List Byte) : Ctl :=
  { c with tcm := bs.zipIdx.foldl (fun m b =>
      let k := (a + b.2) % 2 ^ 32
      if k < tcmSize then m.set k b.1 else m) c.tcm }

/-! ## Immediates -/

/-- A number of n bits, sign-extended to 32 bits. -/
def rvSext (n v : Nat) : BitVec 32 := BitVec.ofInt 32 (sextNat v n)

/-- The immediate of format I. -/
def rvImmI (w : BitVec 32) : BitVec 32 := rvSext 12 (fld w 20 12)
/-- The immediate of format S. -/
def rvImmS (w : BitVec 32) : BitVec 32 := rvSext 12 (fld w 25 7 * 32 + fld w 7 5)
/-- The immediate of format B. -/
def rvImmB (w : BitVec 32) : BitVec 32 :=
  rvSext 13 (fld w 31 1 * 2 ^ 12 + fld w 7 1 * 2 ^ 11 + fld w 25 6 * 2 ^ 5 + fld w 8 4 * 2)
/-- The immediate of format U. -/
def rvImmU (w : BitVec 32) : BitVec 32 := w &&& 0xFFFFF000
/-- The immediate of format J. -/
def rvImmJ (w : BitVec 32) : BitVec 32 :=
  rvSext 21 (fld w 31 1 * 2 ^ 20 + fld w 12 8 * 2 ^ 12 + fld w 20 1 * 2 ^ 11 + fld w 21 10 * 2)

/-! ## RV32I and M -/

/-- The integer operation of a funct3; alt chooses SUB and SRA. -/
def rvAlu (f3 : Nat) (alt : Bool) (a b : BitVec 32) : BitVec 32 :=
  match f3 with
  | 0 => if alt then a - b else a + b
  | 1 => a <<< (b.toNat % 32)
  | 2 => if a.slt b then 1 else 0
  | 3 => if a.ult b then 1 else 0
  | 4 => a ^^^ b
  | 5 => if alt then a.sshiftRight (b.toNat % 32) else a >>> (b.toNat % 32)
  | 6 => a ||| b
  | _ => a &&& b

/-- The operation of M of a funct3: a division by 0 gives all ones, its remainder the dividend. -/
def rvMul (f3 : Nat) (a b : BitVec 32) : BitVec 32 :=
  match f3 with
  | 0 => a * b
  | 1 => BitVec.ofInt 32 (a.toInt * b.toInt / 2 ^ 32)
  | 2 => BitVec.ofInt 32 (a.toInt * (b.toNat : Int) / 2 ^ 32)
  | 3 => BitVec.ofNat 32 (a.toNat * b.toNat / 2 ^ 32)
  | 4 => if b = 0 then -1 else BitVec.ofInt 32 (a.toInt.tdiv b.toInt)
  | 5 => if b = 0 then -1 else BitVec.ofNat 32 (a.toNat / b.toNat)
  | 6 => if b = 0 then a else BitVec.ofInt 32 (a.toInt.tmod b.toInt)
  | _ => if b = 0 then a else BitVec.ofNat 32 (a.toNat % b.toNat)

/-- The condition of a branch; two values of funct3 name none. -/
def rvTaken (f3 : Nat) (a b : BitVec 32) : Option Bool :=
  match f3 with
  | 0 => some (a == b)
  | 1 => some (a != b)
  | 4 => some (a.slt b)
  | 5 => some (!a.slt b)
  | 6 => some (a.ult b)
  | 7 => some (!a.ult b)
  | _ => none

/-- What a load of a funct3 reads: its bytes, and whether it sign-extends. -/
def rvLoad (f3 : Nat) : Option (Nat × Bool) :=
  match f3 with
  | 0 => some (1, true)
  | 1 => some (2, true)
  | 2 => some (4, true)
  | 4 => some (1, false)
  | 5 => some (2, false)
  | _ => none

/-- The control processor moved on, with a register written. -/
def Ctl.put (c : Ctl) (next : BitVec 32) (rd : Nat) (v : BitVec 32) : Option Ctl := some { c.setReg rd v with pc := next }

/-- A word of 32 bits executed, next being the address of the instruction after it; none where it is no instruction, or one that only a trap
answers. -/
def Ctl.exec (c : Ctl) (w : BitVec 32) (next free : BitVec 32) : Option Ctl :=
  let rd := fld w 7 5
  let f3 := fld w 12 3
  let f7 := fld w 25 7
  let a := c.reg (fld w 15 5)
  let b := c.reg (fld w 20 5)
  match fld w 0 7 with
  | 0x37 => c.put next rd (rvImmU w)
  | 0x17 => c.put next rd (c.pc + rvImmU w)
  | 0x6F => c.put (c.pc + rvImmJ w) rd next
  | 0x67 => if f3 = 0 then c.put ((a + rvImmI w) &&& 0xFFFFFFFE) rd next else none
  | 0x63 => (rvTaken f3 a b).map (fun t => { c with pc := if t then c.pc + rvImmB w else next })
  | 0x03 => (rvLoad f3).bind (fun l =>
      let v := c.load (a + rvImmI w).toNat l.1 free
      c.put next rd (if l.2 then rvSext (8 * l.1) v else BitVec.ofNat 32 v))
  | 0x23 => if f3 ≤ 2 then some { c.store (a + rvImmS w).toNat (toBytes b.toNat (2 ^ f3)) with pc := next } else none
  | 0x13 =>
    if f3 = 1 then (if f7 = 0 then c.put next rd (rvAlu 1 false a (BitVec.ofNat 32 (fld w 20 5))) else none)
    else if f3 = 5 then
      (if f7 = 0 ∨ f7 = 32 then c.put next rd (rvAlu 5 (f7 == 32) a (BitVec.ofNat 32 (fld w 20 5))) else none)
    else c.put next rd (rvAlu f3 false a (rvImmI w))
  | 0x33 =>
    if f7 = 1 then c.put next rd (rvMul f3 a b)
    else if f7 = 0 ∨ (f7 = 32 ∧ (f3 = 0 ∨ f3 = 5)) then c.put next rd (rvAlu f3 (f7 == 32) a b)
    else none
  | 0x0F => if f3 = 0 then some { c with pc := next } else none
  | _ => none

/-! ## C -/

/-- The word of format R. -/
def rvWordR (f7 rs2 rs1 f3 rd op : Nat) : Nat := f7 * 2 ^ 25 + rs2 * 2 ^ 20 + rs1 * 2 ^ 15 + f3 * 2 ^ 12 + rd * 2 ^ 7 + op
/-- The word of format I, of an immediate taken modulo 2^12. -/
def rvWordI (imm rs1 f3 rd op : Nat) : Nat := imm % 2 ^ 12 * 2 ^ 20 + rs1 * 2 ^ 15 + f3 * 2 ^ 12 + rd * 2 ^ 7 + op
/-- The word of a store of a word. -/
def rvWordSw (imm rs2 rs1 : Nat) : Nat := rvWordR (imm / 32 % 128) rs2 rs1 2 (imm % 32) 0x23
/-- The word of a branch. -/
def rvWordB (imm rs1 f3 : Nat) : Nat :=
  rvWordR (bitsAt imm 12 1 * 64 + bitsAt imm 5 6) 0 rs1 f3 (bitsAt imm 1 4 * 2 + bitsAt imm 11 1) 0x63
/-- The word of JAL. -/
def rvWordJ (imm rd : Nat) : Nat :=
  bitsAt imm 20 1 * 2 ^ 31 + bitsAt imm 1 10 * 2 ^ 21 + bitsAt imm 11 1 * 2 ^ 20 + bitsAt imm 12 8 * 2 ^ 12 + rd * 2 ^ 7 + 0x6F

/-- A number of n bits sign-extended, as a number of 32 bits. -/
def rvSextNat (n v : Nat) : Nat := (rvSext n v).toNat

/-- The 32-bit word of a compressed instruction of quadrant 0. -/
def rvExpand0 (h : Nat) : Option Nat :=
  let r1 := 8 + bitsAt h 7 3
  let r2 := 8 + bitsAt h 2 3
  let off := bitsAt h 10 3 * 8 + bitsAt h 6 1 * 4 + bitsAt h 5 1 * 64
  match bitsAt h 13 3 with
  | 0 =>
    let imm := bitsAt h 11 2 * 16 + bitsAt h 7 4 * 64 + bitsAt h 6 1 * 4 + bitsAt h 5 1 * 8
    if imm = 0 then none else some (rvWordI imm 2 0 r2 0x13)
  | 2 => some (rvWordI off r1 2 r2 0x03)
  | 6 => some (rvWordSw off r2 r1)
  | _ => none

/-- The 32-bit word of a compressed instruction of quadrant 1. -/
def rvExpand1 (h : Nat) : Option Nat :=
  let rd := bitsAt h 7 5
  let r1 := 8 + bitsAt h 7 3
  let r2 := 8 + bitsAt h 2 3
  let sh := bitsAt h 2 5
  let imm := rvSextNat 6 (bitsAt h 12 1 * 32 + sh)
  let joff := rvSextNat 12 (bitsAt h 12 1 * 2048 + bitsAt h 11 1 * 16 + bitsAt h 9 2 * 256 + bitsAt h 8 1 * 1024 +
    bitsAt h 7 1 * 64 + bitsAt h 6 1 * 128 + bitsAt h 3 3 * 2 + bitsAt h 2 1 * 32)
  let boff := rvSextNat 9 (bitsAt h 12 1 * 256 + bitsAt h 10 2 * 8 + bitsAt h 5 2 * 64 + bitsAt h 3 2 * 2 + bitsAt h 2 1 * 32)
  match bitsAt h 13 3 with
  | 0 => some (rvWordI imm rd 0 rd 0x13)
  | 1 => some (rvWordJ joff 1)
  | 2 => some (rvWordI imm 0 0 rd 0x13)
  | 3 =>
    if rd = 2 then
      let i := rvSextNat 10 (bitsAt h 12 1 * 512 + bitsAt h 6 1 * 16 + bitsAt h 5 1 * 64 + bitsAt h 3 2 * 128 + bitsAt h 2 1 * 32)
      if i = 0 then none else some (rvWordI i 2 0 2 0x13)
    else if imm = 0 then none
    else some (imm % 2 ^ 20 * 2 ^ 12 + rd * 2 ^ 7 + 0x37)
  | 4 =>
    (match bitsAt h 10 2 with
     | 0 => if bitsAt h 12 1 = 0 then some (rvWordR 0 sh r1 5 r1 0x13) else none
     | 1 => if bitsAt h 12 1 = 0 then some (rvWordR 32 sh r1 5 r1 0x13) else none
     | 2 => some (rvWordI imm r1 7 r1 0x13)
     | _ =>
       if bitsAt h 12 1 = 1 then none
       else
         match bitsAt h 5 2 with
         | 0 => some (rvWordR 32 r2 r1 0 r1 0x33)
         | 1 => some (rvWordR 0 r2 r1 4 r1 0x33)
         | 2 => some (rvWordR 0 r2 r1 6 r1 0x33)
         | _ => some (rvWordR 0 r2 r1 7 r1 0x33))
  | 5 => some (rvWordJ joff 0)
  | 6 => some (rvWordB boff r1 0)
  | _ => some (rvWordB boff r1 1)

/-- The 32-bit word of a compressed instruction of quadrant 2; C.EBREAK is none. -/
def rvExpand2 (h : Nat) : Option Nat :=
  let rd := bitsAt h 7 5
  let r2 := bitsAt h 2 5
  let top := bitsAt h 12 1
  match bitsAt h 13 3 with
  | 0 => if top = 0 then some (rvWordR 0 r2 rd 1 rd 0x13) else none
  | 2 => if rd = 0 then none else some (rvWordI (top * 32 + bitsAt h 4 3 * 4 + bitsAt h 2 2 * 64) 2 2 rd 0x03)
  | 4 =>
    if r2 = 0 then (if rd = 0 then none else some (rvWordI 0 rd 0 top 0x67))
    else some (rvWordR 0 r2 (if top = 1 then rd else 0) 0 rd 0x33)
  | 6 => some (rvWordSw (bitsAt h 9 4 * 4 + bitsAt h 7 2 * 64) r2 2)
  | _ => none

/-- The 32-bit word that a compressed instruction stands for. -/
def rvExpand (h : Nat) : Option Nat :=
  match h % 4 with
  | 0 => rvExpand0 h
  | 1 => rvExpand1 h
  | _ => rvExpand2 h

/-! ## One instruction -/

/-- One instruction of the control processor. Where it fetches no instruction, or ECALL or EBREAK, it stops until it is reset: the spec gives
it no trap. PRESUMED (log 90). -/
def Ctl.step (c : Ctl) (free : BitVec 32) : Ctl :=
  let h := c.load c.pc.toNat 2 free
  let r : Option Ctl :=
    if h % 4 = 3 then c.exec (BitVec.ofNat 32 (c.load c.pc.toNat 4 free)) (c.pc + 4) free
    else (rvExpand h).bind (fun w => c.exec (BitVec.ofNat 32 w) (c.pc + 2) free)
  r.getD { c with running := false }

/-- The control processor executes an instruction while firmware runs (R417, R420): it is reset throughout an activation pause, and what
stands outside its memory is a free value. PRESUMED (log 90). -/
def State.stepCtl (s : State) : State :=
  if s.mgmt.mode = 0 ∧ s.mgmt.ctl.running then
    { s with draws := s.draws + 1, mgmt := { s.mgmt with ctl := s.mgmt.ctl.step ((Config.freeWord s.draws).setWidth 32) } }
  else s

end Sys2Proof.Machine
end

