-- ==== Sys2Proof/Machine/Mgmt.lean ====
section
/-! DEFINITION. Management: boot (R419), the management mailbox (R425), firmware activation (R420), SPDM (R421), and which instruction
a command code of R409 or R425 starts. -/

namespace Sys2Proof.Machine

/-! ## Markers and boot (R418, R419) -/

/-- Whether a marker record's CRC holds. -/
def markerValid (m : BitVec 128) : Bool := (Config.markerCrc (m.extractLsb' 32 96)).toNat == fld m 0 32

/-- The slot of a marker record. -/
def markerSlot (m : BitVec 128) : Bool := m.getLsbD 80

/-- The sequence number of a marker record. -/
def markerSeq (m : BitVec 128) : Nat := fld m 96 32

/-- The valid marker records, highest sequence number first. -/
def Mgmt.cands (g : Mgmt) : List (BitVec 128) :=
  let xs := [g.m0, g.m1].filter markerValid
  match xs with
  | [a, b] => if markerSeq a < markerSeq b then [b, a] else [a, b]
  | _ => xs

/-- The slot that the markers name as active. -/
def Mgmt.active (g : Mgmt) : Option Bool := g.cands.head?.map markerSlot

/-- A marker record of a sequence number, slot and security version. -/
def mkMarker (seq : Nat) (b : Bool) (svn : BitVec 16) : BitVec 128 :=
  let hi : BitVec 96 := BitVec.ofNat 96 (seq % 2 ^ 32 * 2 ^ 64 + b2n b * 2 ^ 48 + svn.toNat * 2 ^ 32)
  BitVec.ofNat 128 (hi.toNat * 2 ^ 32 + (Config.markerCrc hi).toNat)

/-- A flip to a slot (R419): of the two records the invalid one, or the one with the lower number, is written. -/
def Mgmt.flip (g : Mgmt) (b : Bool) (svn : BitVec 16) : Mgmt :=
  let top := (g.cands.head?.map markerSeq).getD 0
  let m := mkMarker (top + 1) b svn
  if !markerValid g.m0 then { g with m0 := m }
  else if !markerValid g.m1 then { g with m1 := m }
  else if markerSeq g.m0 ≤ markerSeq g.m1 then { g with m0 := m }
  else { g with m1 := m }

/-- What an image's verification finds against a fused minimum (R418), in the codes of IMGCLOSE (R425): 0 verified, 1 digest, 2 RSA
signature, 3 SLH-DSA signature, 4 SVN. -/
def verifyCode (bytes : List Byte) (fsvn : Nat) : Nat :=
  let d := Config.sha384 (Config.imageBody bytes)
  if d ≠ Config.imageDigest bytes then 1
  else if !Config.rsaVerifies d bytes then 2
  else if !Config.slhVerifies d bytes then 3
  else if (Config.imageSvn bytes).toNat < fsvn then 4
  else 0

/-- Whether a slot verifies (R418). -/
def State.verifies (s : State) (b : Bool) : Bool := verifyCode (s.flash b) s.mgmt.fsvn.toNat == 0

/-- The slot that the boot ROM boots, none for recovery. -/
def State.bootSlot (s : State) : Option Bool :=
  let named := s.mgmt.cands.map markerSlot
  (named ++ [false, true].filter (fun b => !named.contains b)).find? (fun b => s.verifies b)

/-- UNITS of a site at boot (R14, R352). -/
def bootUnits (c : Cls) (tier2 : Bool) : BitVec 64 :=
  match c with
  | .dmx => 0xFF
  | .spx => 0xF0F
  | .srt => 0xF000
  | .mem => if tier2 then 0x0007FFFF00000000 else 0x0003FFFF00000000
  | .link => 0xFF
  | _ => 0

/-- The discovery-table entry of a site at boot (R352). -/
def State.bootDisc (s : State) (bytes : List Byte) (i : Nat) : Disc :=
  let c := s.cls i
  let compute := decide (i < 16)
  { ltv := if compute then 1 else 0
    lanes := if c == .vec then 128 else if compute then 32 else 0
    cores := match c with
      | .dmx => 0xFFFF
      | .vec => 0xFFFF
      | .spx => 0xFF
      | .srt => 0xFF
      | _ => 0
    inst := BitVec.ofNat 8 ((List.range i).filter (fun j => s.cls j == c)).length
    st := .ready, site := BitVec.ofNat 8 i, cls := BitVec.ofNat 3 c.code
    units := bootUnits c (decide (s.tier2.get (i - 16) 0 ≠ 0)), fwver := Config.imageFw bytes i, schg := 0, tchg := 0 }

/-- The root RCB that firmware writes at boot (R24; log 6). -/
def rootRcb : Rcb := { Rcb.zero with prio := 7, state := 1, budget := 524288, binq := 65536, age := 1000 }

/-- The tables as firmware leaves them after boot: the routing table (R12), the discovery table, the root, and the 64 partitions' blocks at
their resets. -/
def State.bootTables (s : State) (bytes : List Byte) : State :=
  { s.routeRound [] with
    disc := (List.range 27).map (fun i => (i, s.bootDisc bytes i))
    rcbs := (0, rootRcb) :: (List.range 64).map (fun p =>
      (1 + p, { Rcb.zero with level := 1, part := BitVec.ofNat 6 p, state := 1 })) }

/-- The control processor reset into an image: its code loaded, its registers as log 79 names them. DESIGN CHOICE (log 79). -/
def Ctl.start (bytes : List Byte) : Ctl :=
  { Ctl.zero with tcm := ((Config.imageCode bytes).take tcmSize).zipIdx.map (fun b => (b.2, b.1)), running := true }

/-- Firmware of a slot running. -/
def Mgmt.running (g : Mgmt) (b : Bool) (bytes : List Byte) : Mgmt :=
  { g with mode := 0, slot := b, rsvn := Config.imageSvn bytes, layout := Config.imageLayout bytes, image := bytes, ctl := Ctl.start bytes }

/-- The microcode of every site as an image carries it (R417). -/
def siteMicrocode (bytes : List Byte) : NMap (List Byte) := (List.range 27).map (fun i => (i, Config.imageMicrocode bytes i))

/-- The CDIs of the layers of an image (R421): the firmware's from the UDS and its measurement, and that of the layer after it, the sites'
microcode. DESIGN CHOICE (log 79). -/
def diceLayers (bytes : List Byte) : List (List Byte) :=
  let c := Config.hmac384 Config.uds (Config.sha384 bytes)
  [c, Config.hmac384 c (Config.sha384 ((siteMicrocode bytes).flatMap (fun p => p.2)))]

/-- What boot leaves beside the running firmware: every site's microcode, the device's identity, and the UDS locked until reset (R417,
R421). -/
def Mgmt.booted (g : Mgmt) (bytes : List Byte) : Mgmt :=
  let cdis := diceLayers bytes
  { g with ucode := siteMicrocode bytes, cdis := cdis, idKeys := cdis.map Config.identityKey, udsLocked := true }

/-- The fused minimum raised to the running image's number, once an accepted activation has booted it (R420). DEDUCED (log 55). -/
def Mgmt.raiseSvn (g : Mgmt) : Mgmt := { g with fsvn := if g.fsvn.toNat < g.rsvn.toNat then g.rsvn else g.fsvn }

/-- BOOT (R419): the boot ROM boots the first slot that verifies, or enters recovery. An image that ACTIVATE reset the package into has
then booted once (R420). DEDUCED (log 55). -/
def execBoot (s : State) : Host.Outcome State Fault Refusal :=
  match s.bootSlot with
  | none => .next { s with mgmt := { s.mgmt with mode := 1 } }
  | some b =>
    let g := (s.mgmt.running b (s.flash b)).booted (s.flash b)
    .next { s.bootTables (s.flash b) with mgmt := if g.newFw then g.raiseSvn else g }

/-! ## The management mailbox (R425) -/

/-- A management command's end at a mailbox: BUSY cleared, STATUS written, MSI-X vector 0 of the PF. -/
def Mgmt.done (g : Mgmt) (box status : Nat) : Mgmt :=
  g.modBox box (fun x => { x with busy := false, status := BitVec.ofNat 16 status, msix := true })

/-- A command of the management mailbox that the turn's item names, which completes with a status. -/
def mgmtCmd (f : State → Nat × State) (s : State) : Host.Outcome State Fault Refusal :=
  let r := f s
  .next { r.2 with mgmt := r.2.mgmt.done s.turn.item r.1 }

/-- The size of a boot-flash slot in bytes (log 6). -/
def flashSize : Nat := 2 ^ 26

/-- IMGOPEN (R425). -/
def execImgopen (slot : Word) (s : State) : Host.Outcome State Fault Refusal :=
  mgmtCmd (fun t =>
    let b := slot == 1
    if 1 < slot.toNat then (5, t)
    else if t.mgmt.active = some b then (1, t)
    else (0, { t with mem := Memory.clear t.mem (flashBase b) (flashBase b + 2 ^ 40)
                      mgmt := { t.mgmt with staged := false, opened := some b } })) s

/-- The bytes of MDATA. -/
def Mailbox.data (x : Mailbox) (n : Nat) : List Byte :=
  (List.range n).map (fun i => BitVec.ofNat 8 (fld (x.mdata.get (i / 8) 0) (8 * (i % 8)) 8))

/-- IMGWRITE (R425). -/
def execImgwrite (off len : Word) (s : State) : Host.Outcome State Fault Refusal :=
  mgmtCmd (fun t =>
    match t.mgmt.opened with
    | none => (5, t)
    | some b =>
      if t.mgmt.active = some b then (1, t)
      else if off.toNat % 2048 ≠ 0 ∨ len.toNat = 0 ∨ 2048 < len.toNat ∨ flashSize < off.toNat + len.toNat then (5, t)
      else (0, t.writeMem (Memory.cellsAt (flashBase b + off.toNat) ((t.mgmt.box t.turn.item).data len.toNat)))) s

/-- IMGCLOSE (R418, R425). -/
def execImgclose (s : State) : Host.Outcome State Fault Refusal :=
  mgmtCmd (fun t =>
    match t.mgmt.opened with
    | none => (5, t)
    | some b =>
      let r := verifyCode (t.flash b) t.mgmt.fsvn.toNat
      let g := t.mgmt.modBox t.turn.item (fun x => { x with mw := x.mw.set 0 (BitVec.ofNat 64 r) })
      (0, { t with mgmt := { g with staged := g.staged || r == 0 } })) s

/-- Whether an image may not replace the running one (R73, R420): a saved context would be more than two layouts behind, or the
latency-table version of a class with live sites differs. -/
def State.layoutBusy (s : State) (bytes : List Byte) : Bool :=
  let old : Bits512 → Bool := fun h => !convertsLayout (Config.imageLayout bytes) (headLayout h)
  s.saved.any (fun g => g.heads.any (fun h => old h.2)) || s.cores.any (fun c => c.2.preempt.isSome && old c.2.preHead) ||
    (List.range 16).any (fun i =>
      (s.siteDisc i).st != .absent && Config.imageLtv bytes (s.siteDisc i).cls.toNat != (s.siteDisc i).ltv)

/-- The package reset into a staged image from recovery: what boot flash, the fuses and the world outside hold stays.
DEDUCED (log 55). -/
def State.resetInto (s : State) (b : Bool) : State :=
  let bytes := s.flash b
  let lo := flashBase false
  { State.reset with
    draws := s.draws, inbox := s.inbox, population := s.population,
    mem := s.mem.filter (fun c => decide (lo ≤ c.1)), tier2 := s.tier2,
    mgmt := { Mgmt.zero with fsvn := s.mgmt.fsvn, m0 := (s.mgmt.flip b (Config.imageSvn bytes)).m0,
                             m1 := (s.mgmt.flip b (Config.imageSvn bytes)).m1, newFw := true } }

/-- ACTIVATE (R73, R419, R420, R425): the marker is flipped to the staged slot and its image activated; in recovery the package is reset
into it. -/
def execActivate (s : State) : Host.Outcome State Fault Refusal :=
  mgmtCmd (fun t =>
    match t.mgmt.opened with
    | none => (2, t)
    | some b =>
      if !t.mgmt.staged ∨ !t.verifies b then (2, t)
      else if t.mgmt.mode = 1 then (0, t.resetInto b)
      else if t.layoutBusy (t.flash b) then (3, t)
      else
        let g := t.mgmt.flip b (Config.imageSvn (t.flash b))
        (0, { t with mgmt := { g with pending := some b } })) s

/-! ## What a command code starts -/

/-- An argument word of the command page. -/
def State.arg (s : State) (p i : Nat) : Word := (s.part p).cw.get i 0

/-- The command of an OP of R409 with its arguments; none where R409 has no such OP. -/
def State.hostInstr (s : State) (p : Nat) (op : Nat) : Option Instr :=
  let w := s.arg p
  match op with
  | 0x01 => some (.resume (w 0))
  | 0x02 => some (.skip (w 0))
  | 0x03 => some (.abortNode (w 0))
  | 0x04 => some (.abortGraph (w 0))
  | 0x05 => some .kill
  | 0x06 => some .suspend
  | 0x07 => some .continueCmd
  | 0x10 => some (.load (w 0) (w 1) (w 2) (w 3) (w 4))
  | 0x11 => some (.unpin (w 0))
  | 0x12 => some (.halloc (w 0) (w 1))
  | 0x13 => some (.exportCmd (w 0) (w 1))
  | 0x14 => some (.wexport (w 0) (w 1))
  | 0x20 => some (.rcbwr (w 0) (w 1) (w 2) (w 3) (w 4))
  | 0x21 => some .jobnew
  | 0x22 => some (.jobdel (w 0))
  | 0x23 => some (.holdwr (w 0) (w 1) (w 2) (w 3))
  | 0x24 => some (.qcreate (w 0) (w 1) (w 2))
  | 0x25 => some (.qdestroy (w 0))
  | 0x30 => some (.drain (w 0))
  | 0x31 => some (.recal (w 0))
  | 0x32 => some (.returnCmd (w 0))
  | 0x40 => some (.keyreq (w 0))
  | 0x41 => some (.frec (w 0))
  | _ => none

/-- A command of R409 run for a partition; an unknown OP completes BAD_CMD. -/
def State.runHost (s : State) (p op : Nat) : State :=
  match s.hostInstr p op with
  | some i => s.front [.run { Turn.zero with part := p } i]
  | none => s.cmdDone p 9

/-- CGO written by a partition's host (R409): ignored while BUSY; held during an activation pause (R420). -/
def State.writeCgo (s : State) (p op : Nat) : State :=
  if (s.part p).busy then s
  else
    let t := s.modPart p (fun x => { x with busy := true, op := BitVec.ofNat 8 op })
    if s.mgmt.mode = 2 then { t with mgmt := { t.mgmt with held := t.mgmt.held ++ [.host p op] } } else t.runHost p op

/-- The command of an OP of R425 with the arguments of its mailbox; none where R425 has no such OP or recovery does not serve it. -/
def Mgmt.instr (g : Mgmt) (box op : Nat) : Option Instr :=
  let w : Nat → Word := fun i => (g.box box).mw.get i 0
  match op with
  | 0x01 => some (.imgopen (w 0))
  | 0x02 => some (.imgwrite (w 0) (w 1))
  | 0x03 => some .imgclose
  | 0x04 => some .activate
  | 0x10 => if g.mode = 1 then none else some (.setpkg (w 0))
  | 0x11 => if g.mode = 1 then none else some .leave
  | 0x12 => if g.mode = 1 then none else some .join
  | 0x13 => if g.mode = 1 then none else some (.route (w 0) (w 1))
  | _ => none

/-- A command of R425 run; an unknown OP completes BAD_CMD. -/
def State.runMgmt (s : State) (box op : Nat) : State :=
  match s.mgmt.instr box op with
  | some i => s.front [.run { Turn.zero with item := box } i]
  | none => { s with mgmt := s.mgmt.done box 5 }

/-- MGO of a mailbox written (R425): ignored while its BUSY is 1; held during an activation pause. Commands run one at a time. -/
def State.writeMgo (s : State) (box op : Nat) : State :=
  if (s.mgmt.box box).busy ∨ 3 ≤ box then s
  else
    let t := { s with mgmt := s.mgmt.modBox box (fun x => { x with busy := true, op := BitVec.ofNat 8 op }) }
    if s.mgmt.mode = 2 then { t with mgmt := { t.mgmt with held := t.mgmt.held ++ [.mgmt box op] } } else t.runMgmt box op

/-- A command held during a pause, run after it. -/
def State.runHeld (s : State) (c : HeldCmd) : State :=
  match c with
  | .host p op => s.runHost p op
  | .mgmt box op => s.runMgmt box op

/-! ## Activation (R420) -/

/-- The control processor reset into the staged image: the pause begins, and lasts at most 50 ms. -/
def State.beginPause (s : State) (b : Bool) : State :=
  let d := s.draw 5000001
  let t := d.2
  let g := t.mgmt.running b (s.flash b)
  { t with mgmt := { g with mode := 2, pending := none, staged := false, opened := none, newFw := true, pauseEnd := s.tick + d.1 } }

/-- The end of the pause: the fused minimum rises to the image's number, and the commands held run in arrival order. -/
def State.endPause (s : State) : State :=
  let g := s.mgmt
  g.held.foldr (fun c (u : State) => u.runHeld c) { s with mgmt := { g.raiseSvn with mode := 0, held := [] } }

/-- ACTIVATION_RESET (R420): an accepted activation resets the control processor at its quiesce point, and, later, its pause ends. -/
def execActivationReset (s : State) : Host.Outcome State Fault Refusal :=
  match s.mgmt.pending with
  | some b => .next (s.beginPause b)
  | none => if s.mgmt.mode = 2 ∧ s.mgmt.pauseEnd ≤ s.tick then .next s.endPause else .next s

/-! ## The domain (R413, R414) -/

/-- SETPKG (R425). -/
def execSetpkg (n : Word) (s : State) : Host.Outcome State Fault Refusal :=
  mgmtCmd (fun t =>
    if t.mgmt.mode = 1 ∨ 511 < n.toNat then (5, t)
    else if t.mgmt.indom then (4, t)
    else (0, { t with mgmt := { t.mgmt with pkg := BitVec.ofNat 9 n.toNat } })) s

/-- LEAVE (R414, R425). -/
def execLeave (s : State) : Host.Outcome State Fault Refusal :=
  mgmtCmd (fun t =>
    if t.mgmt.mode = 1 then (5, t)
    else if !t.mgmt.indom then (4, t)
    else (0, { t with mgmt := { t.mgmt with indom := false } })) s

/-- JOIN (R414, R425): the package's ports retrain. -/
def execJoin (s : State) : Host.Outcome State Fault Refusal :=
  mgmtCmd (fun t =>
    if t.mgmt.mode = 1 then (5, t)
    else if t.mgmt.indom then (4, t)
    else
      let u := (List.range 16).foldl (fun (v : State) n => v.retrainPort n) t
      (0, { u with mgmt := { u.mgmt with indom := true } })) s

/-- ROUTE (R413, R414, R425): an entry of the domain route table; one that names no port takes its package out of the table, as every
member does when that package leaves, and one that names ports again for a package that had left retrains them. DEDUCED (log 53). -/
def execRoute (pkg ports : Word) (s : State) : Host.Outcome State Fault Refusal :=
  mgmtCmd (fun t =>
    let ps := (List.range 4).map (fun i => fld ports (5 * i) 5)
    if t.mgmt.mode = 1 ∨ 511 < pkg.toNat ∨ ps.any (fun x => decide (15 < x) && x != 31) then (5, t)
    else
      let out := ps.all (fun x => x == 31)
      let t := if !out && t.left.contains pkg.toNat then ps.foldl (fun (v : State) n => v.retrainPort n) t else t
      (0, { t with routes := t.routes.set pkg.toNat (BitVec.ofNat 20 ports.toNat),
                   left := if out then insertNat pkg.toNat t.left else t.left.filter (fun x => x != pkg.toNat) })) s

/-! ## SPDM (R421) -/

/-- The measurements of the boot ROM, the running firmware and the sites' microcode (R421). -/
def Mgmt.measure (g : Mgmt) : List Byte :=
  (Config.bootRom :: g.image :: g.ucode.map (fun p => p.2)).flatMap Config.sha384

/-- SPDM_REQUEST (R360, R421): the measurements are returned; a secure session opens; or key material that an owner asked for arrives in
one. -/
def execSpdmRequest (r : SpdmReq) (s : State) : Host.Outcome State Fault Refusal :=
  match r with
  | .measurements => .next { s with mgmt := { s.mgmt with measured := s.mgmt.measure } }
  | .session => .next { s with mgmt := { s.mgmt with session := true } }
  | .keyMaterial part slot key =>
    let k := slot.toNat
    let x := s.keys.get k Key.zero
    if s.mgmt.session ∧ x.asked ∧ x.part = part ∧ x.nbuf = 0 then
      .next { s with keys := s.keys.set k { x with valid := true, material := key, asked := false } }
    else .next s

end Sys2Proof.Machine
end

