-- ==== Sys2Proof/Machine/Scalar.lean ====
section
/-! DEFINITION. Scalar arithmetic: the operations of ALA, ALB and MUL (R148, R160-R162), and RESULT_WRITE (R145). -/

namespace Sys2Proof.Machine

/-! ## The integer units -/

/-- sext of a 32-bit result to 64 bits. -/
def sextW (x : BitVec 32) : Word := x.signExtend 64

/-- The low 32 bits of a port. -/
def lowW (x : Word) : BitVec 32 := x.setWidth 32

/-- A shift amount: the low 8 bits of the amount operand (R94). -/
def amount (x : Word) : Nat := x.toNat % 256

/-- Leading zeros of a word. -/
def clz64 (x : Word) : Nat := 64 - bitLen x.toNat

/-- Trailing zeros of a word. -/
def ctz64 (x : Word) : Nat := (lowestBit x.toNat 64).getD 64

/-- The field mask 2^w - 1 of a descriptor (R161). -/
def fieldMask (b : Word) : Word := BitVec.ofNat 64 (2 ^ (fld b 6 6 + 1) - 1)

/-- EXTR (R161). -/
def extrWord (a b : Word) : Word := (a >>> fld b 0 6) &&& fieldMask b

/-- INS (R161). -/
def insWord (a b p : Word) : Word :=
  (p &&& ~~~(fieldMask b <<< fld b 0 6)) ||| ((a &&& fieldMask b) <<< fld b 0 6)

/-- An integer-unit operation that writes port D, with latency 1 (R148, R160). -/
def aluD (u : AluUnit) (f : Operands → Word) (s : State) : Host.Outcome State Fault Refusal :=
  .next (s.emit u.fu 1 [(0, .s (f s.turn.ops))])

/-- An integer-unit compare: it writes port F with 0 or 1, with latency 1 (R148, R160). -/
def aluF (u : AluUnit) (f : Operands → Bool) (s : State) : Host.Outcome State Fault Refusal :=
  .next (s.emit u.fu 1 [(1, .s (b2w (f s.turn.ops)))])

/-- ADD (R160). -/
def execAdd (u : AluUnit) (s : State) : Host.Outcome State Fault Refusal := aluD u (fun o => o.a + o.b) s

/-- SUB (R160). -/
def execSub (u : AluUnit) (s : State) : Host.Outcome State Fault Refusal := aluD u (fun o => o.a - o.b) s

/-- ADDW (R160). -/
def execAddw (u : AluUnit) (s : State) : Host.Outcome State Fault Refusal := aluD u (fun o => sextW (lowW o.a + lowW o.b)) s

/-- SUBW (R160). -/
def execSubw (u : AluUnit) (s : State) : Host.Outcome State Fault Refusal := aluD u (fun o => sextW (lowW o.a - lowW o.b)) s

/-- AND (R160). -/
def execAnd (u : AluUnit) (s : State) : Host.Outcome State Fault Refusal := aluD u (fun o => o.a &&& o.b) s

/-- OR (R160). -/
def execOr (u : AluUnit) (s : State) : Host.Outcome State Fault Refusal := aluD u (fun o => o.a ||| o.b) s

/-- XOR (R160). -/
def execXor (u : AluUnit) (s : State) : Host.Outcome State Fault Refusal := aluD u (fun o => o.a ^^^ o.b) s

/-- ANDN (R160). -/
def execAndn (u : AluUnit) (s : State) : Host.Outcome State Fault Refusal := aluD u (fun o => o.a &&& ~~~o.b) s

/-- SHL (R160). -/
def execShl (u : AluUnit) (s : State) : Host.Outcome State Fault Refusal := aluD u (fun o => o.a <<< amount o.b) s

/-- SHR (R160). -/
def execShr (u : AluUnit) (s : State) : Host.Outcome State Fault Refusal := aluD u (fun o => o.a >>> amount o.b) s

/-- SRA (R160). -/
def execSra (u : AluUnit) (s : State) : Host.Outcome State Fault Refusal := aluD u (fun o => o.a.sshiftRight (amount o.b)) s

/-- SHLW (R160). -/
def execShlw (u : AluUnit) (s : State) : Host.Outcome State Fault Refusal := aluD u (fun o => sextW (lowW o.a <<< amount o.b)) s

/-- SHRW (R160). -/
def execShrw (u : AluUnit) (s : State) : Host.Outcome State Fault Refusal := aluD u (fun o => sextW (lowW o.a >>> amount o.b)) s

/-- SRAW (R160). -/
def execSraw (u : AluUnit) (s : State) : Host.Outcome State Fault Refusal := aluD u (fun o => sextW ((lowW o.a).sshiftRight (amount o.b))) s

/-- ROL (R160). -/
def execRol (u : AluUnit) (s : State) : Host.Outcome State Fault Refusal := aluD u (fun o => o.a.rotateLeft (amount o.b % 64)) s

/-- ROR (R160). -/
def execRor (u : AluUnit) (s : State) : Host.Outcome State Fault Refusal := aluD u (fun o => o.a.rotateRight (amount o.b % 64)) s

/-- CLZ (R160). -/
def execClz (u : AluUnit) (s : State) : Host.Outcome State Fault Refusal := aluD u (fun o => BitVec.ofNat 64 (clz64 o.a)) s

/-- CTZ (R160). -/
def execCtz (u : AluUnit) (s : State) : Host.Outcome State Fault Refusal := aluD u (fun o => BitVec.ofNat 64 (ctz64 o.a)) s

/-- POPC (R160). -/
def execPopc (u : AluUnit) (s : State) : Host.Outcome State Fault Refusal := aluD u (fun o => BitVec.ofNat 64 (popcount o.a.toNat 64)) s

/-- BREV (R160). -/
def execBrev (u : AluUnit) (s : State) : Host.Outcome State Fault Refusal := aluD u (fun o => BitVec.ofNat 64 (revBits o.a.toNat 64)) s

/-- BSWAP (R160). -/
def execBswap (u : AluUnit) (s : State) : Host.Outcome State Fault Refusal := aluD u (fun o => BitVec.ofNat 64 (ofBytes (toBytes o.a.toNat 8).reverse)) s

/-- EQ (R160). -/
def execEq (u : AluUnit) (s : State) : Host.Outcome State Fault Refusal := aluF u (fun o => o.a == o.b) s

/-- NE (R160). -/
def execNe (u : AluUnit) (s : State) : Host.Outcome State Fault Refusal := aluF u (fun o => o.a != o.b) s

/-- LT (R160). -/
def execLt (u : AluUnit) (s : State) : Host.Outcome State Fault Refusal := aluF u (fun o => o.a.slt o.b) s

/-- LTU (R160). -/
def execLtu (u : AluUnit) (s : State) : Host.Outcome State Fault Refusal := aluF u (fun o => o.a.ult o.b) s

/-- LE (R160). -/
def execLe (u : AluUnit) (s : State) : Host.Outcome State Fault Refusal := aluF u (fun o => o.a.sle o.b) s

/-- LEU (R160). -/
def execLeu (u : AluUnit) (s : State) : Host.Outcome State Fault Refusal := aluF u (fun o => o.a.ule o.b) s

/-- MIN (R160). -/
def execMin (u : AluUnit) (s : State) : Host.Outcome State Fault Refusal := aluD u (fun o => if o.b.slt o.a then o.b else o.a) s

/-- MINU (R160). -/
def execMinu (u : AluUnit) (s : State) : Host.Outcome State Fault Refusal := aluD u (fun o => if o.b.ult o.a then o.b else o.a) s

/-- MAX (R160). -/
def execMax (u : AluUnit) (s : State) : Host.Outcome State Fault Refusal := aluD u (fun o => if o.a.slt o.b then o.b else o.a) s

/-- MAXU (R160). -/
def execMaxu (u : AluUnit) (s : State) : Host.Outcome State Fault Refusal := aluD u (fun o => if o.a.ult o.b then o.b else o.a) s

/-- SEL (R160). -/
def execSel (u : AluUnit) (s : State) : Host.Outcome State Fault Refusal := aluD u (fun o => if o.p.getLsbD 0 then o.a else o.b) s

/-- SEXT8 (R160). -/
def execSext8 (u : AluUnit) (s : State) : Host.Outcome State Fault Refusal := aluD u (fun o => sext64 o.a.toNat 8) s

/-- SEXT16 (R160). -/
def execSext16 (u : AluUnit) (s : State) : Host.Outcome State Fault Refusal := aluD u (fun o => sext64 o.a.toNat 16) s

/-- SEXT32 (R160). -/
def execSext32 (u : AluUnit) (s : State) : Host.Outcome State Fault Refusal := aluD u (fun o => sext64 o.a.toNat 32) s

/-- ZEXT8 (R160). -/
def execZext8 (u : AluUnit) (s : State) : Host.Outcome State Fault Refusal := aluD u (fun o => zext64 o.a.toNat 8) s

/-- ZEXT16 (R160). -/
def execZext16 (u : AluUnit) (s : State) : Host.Outcome State Fault Refusal := aluD u (fun o => zext64 o.a.toNat 16) s

/-- ZEXT32 (R160). -/
def execZext32 (u : AluUnit) (s : State) : Host.Outcome State Fault Refusal := aluD u (fun o => zext64 o.a.toNat 32) s

/-- EXTR (R161). -/
def execExtr (u : AluUnit) (s : State) : Host.Outcome State Fault Refusal := aluD u (fun o => extrWord o.a o.b) s

/-- INS (R161). -/
def execIns (u : AluUnit) (s : State) : Host.Outcome State Fault Refusal := aluD u (fun o => insWord o.a o.b o.p) s

/-- PASS (R160). -/
def execPass (u : AluUnit) (s : State) : Host.Outcome State Fault Refusal := aluD u (fun o => o.a) s

/-! ## The multiplier -/

/-- The latency of a MUL operation on a class (R148): low is 3 for MULL and MULW and 4 for MULH and MULHU, one more on SPX and
SRT. -/
def mulLat (low : Nat) : Cls → Nat
  | .spx => low + 1
  | .srt => low + 1
  | _ => low

/-- A multiplication into port D. -/
def mulD (low : Nat) (f : Operands → Word) (s : State) : Host.Outcome State Fault Refusal :=
  .next (s.emit .mul (mulLat low (s.coreCls s.turn.core)) [(0, .s (f s.turn.ops))])

/-- A division into port D, with latency 24. -/
def divD (f : Operands → Word) (s : State) : Host.Outcome State Fault Refusal :=
  .next (s.emit .mul 24 [(0, .s (f s.turn.ops))])

/-- MULL (R162). -/
def execMull (s : State) : Host.Outcome State Fault Refusal := mulD 3 (fun o => o.a * o.b) s

/-- MULH (R162). -/
def execMulh (s : State) : Host.Outcome State Fault Refusal := mulD 4 (fun o => BitVec.ofInt 64 (o.a.toInt * o.b.toInt / 2 ^ 64)) s

/-- MULHU (R162). -/
def execMulhu (s : State) : Host.Outcome State Fault Refusal := mulD 4 (fun o => BitVec.ofNat 64 (o.a.toNat * o.b.toNat / 2 ^ 64)) s

/-- MULW (R162). -/
def execMulw (s : State) : Host.Outcome State Fault Refusal := mulD 3 (fun o => sextW (lowW o.a * lowW o.b)) s

/-- DIV (R162). -/
def execDiv (s : State) : Host.Outcome State Fault Refusal := divD (fun o => if o.b = 0 then -1 else BitVec.ofInt 64 (o.a.toInt.tdiv o.b.toInt)) s

/-- DIVU (R162). -/
def execDivu (s : State) : Host.Outcome State Fault Refusal := divD (fun o => if o.b = 0 then -1 else BitVec.ofNat 64 (o.a.toNat / o.b.toNat)) s

/-- REM (R162). -/
def execRem (s : State) : Host.Outcome State Fault Refusal := divD (fun o => if o.b = 0 then o.a else BitVec.ofInt 64 (o.a.toInt.tmod o.b.toInt)) s

/-- REMU (R162). -/
def execRemu (s : State) : Host.Outcome State Fault Refusal := divD (fun o => if o.b = 0 then o.a else BitVec.ofNat 64 (o.a.toNat % o.b.toNat)) s

/-! ## RESULT_WRITE -/

/-- RESULT_WRITE (R145, R146): the operation in flight that the turn's item numbers writes its ports. -/
def execResultWrite (s : State) : Host.Outcome State Fault Refusal :=
  let c := s.core s.turn.core
  match c.inflight.find? (fun e => e.seq == s.turn.item) with
  | some e => .next (s.setCore s.turn.core (c.land e (c.movedC.contains e.fu)))
  | none => .next s

end Sys2Proof.Machine
end

