-- ==== Sys2Proof/Machine/Sort.lean ====
section
/-! DEFINITION. The sort engines (R328-R330). -/

namespace Sys2Proof.Machine

/-! ## Keys and their order (R328) -/

/-- Bytes of a key of type KT. -/
def keyBytes (kt : Nat) : Nat := if kt < 3 then 4 else 8

/-- The floating format of a key type, if it is one. -/
def keyFmt (kt : Nat) : Option FFmt :=
  match kt with
  | 2 => some .fp32
  | 5 => some .fp64
  | _ => none

/-- A key's place in ascending order; none for a NaN. Floating numbers order by sign and magnitude, so that -0 precedes +0. -/
def keyRank (kt bits : Nat) : Option Int :=
  let w := 8 * keyBytes kt
  match keyFmt kt with
  | some f =>
    if (f.decode bits).isNaN then none
    else
      let m : Int := (bits % 2 ^ (w - 1) : Nat)
      some (if bitAt bits (w - 1) then -m - 1 else m)
  | none => some (readInt (kt == 1 || kt == 4) w bits)

/-- Whether one key comes before another: NaNs are last and equal, whichever way the order runs. -/
def precedes (kt : Nat) (desc : Bool) (a b : Nat) : Bool :=
  match keyRank kt a, keyRank kt b with
  | none, _ => false
  | some _, none => true
  | some x, some y => if desc then decide (y < x) else decide (x < y)

/-- An element: key, payload and input index. -/
structure SortElem where
  key : Nat
  pay : Nat
  idx : Nat
  deriving DecidableEq, Repr

/-- An element put before the first element that it does not follow. -/
def insertElem (lt : Nat → Nat → Bool) (x : SortElem) : List SortElem → List SortElem
  | [] => [x]
  | y :: ys => if lt y.key x.key then y :: insertElem lt x ys else x :: y :: ys

/-- A stable sort: keys equal in the order keep their input order. -/
def sortElems (lt : Nat → Nat → Bool) (xs : List SortElem) : List SortElem := xs.foldr (insertElem lt) []

/-! ## Layout -/

/-- Bytes of an input payload: PW 1 and 2 only. -/
def payIn (pw : Nat) : Nat := if pw = 1 then 4 else if pw = 2 then 8 else 0
/-- Bytes of an output payload. -/
def payOut (pw : Nat) : Nat := if pw = 2 then 8 else if pw = 0 then 0 else 4

/-- n elements of a size from a byte list. -/
def splitElems (size : Nat) (bs : List Byte) : Nat → List Nat
  | 0 => []
  | n + 1 => ofBytes (bs.take size) :: splitElems size (bs.drop size) n

/-- Whether two byte ranges of handles lie in one buffer and overlap. DEDUCED (log 43). -/
def overlaps (h0 h1 : Handle) (a n b m : Nat) : Bool :=
  hBid h0 == hBid h1 && n != 0 && m != 0 &&
    decide (hAddr h0 a < hAddr h1 b + m) && decide (hAddr h1 b < hAddr h0 a + n)

/-- The ranges a command reads through H0 and writes through H1, as offset and length. -/
structure SortRanges where
  src : List (Nat × Nat)
  dst : List (Nat × Nat)
  deriving DecidableEq, Repr

/-- The checks of a sort command: right R and W over its ranges, and no destination byte over a source byte of the same buffer,
except where the command sorts in place (R328). DEDUCED (log 43). -/
def sortChk (rs : SortRanges) (inPlace : Bool) (s : State) (q : QEnt) : Option EngErr :=
  let clash := rs.src.any (fun a => rs.dst.any (fun b => overlaps q.h0 q.h1 a.1 a.2 b.1 b.2))
  let same := inPlace && hView q.h0 == hView q.h1
  firstErr ((if clash && !same then some (EngErr.illegal q.word) else none)
    :: rs.src.map (fun a => s.entErr q q.h0 a.1 a.2 .r) ++ rs.dst.map (fun b => s.entErr q q.h1 b.1 b.2 .w))

/-- A range of n keys and one of their payloads. DEDUCED (log 43). -/
def sortRange (b : SortBody) (koff poff pay n : Nat) : List (Nat × Nat) :=
  (koff, n * keyBytes b.kt.toNat) :: if pay = 0 then [] else [(poff, n * pay)]

/-- The ranges of a command that reads n keys with their payloads and writes at most m. -/
def sortRanges (b : SortBody) (n m : Nat) : SortRanges :=
  { src := sortRange b b.koff.toNat b.poff.toNat (payIn b.pw.toNat) n,
    dst := sortRange b b.dkoff.toNat b.dpoff.toNat (payOut b.pw.toNat) m }

/-- n elements read from element i on, with their payloads or, under PW 3, their indices. -/
def State.readElems (s : State) (q : QEnt) (b : SortBody) (i n : Nat) : Except ErrAt (List SortElem × State) :=
  let ks := keyBytes b.kt.toNat
  let ps := payIn b.pw.toNat
  match s.engRead q.h0 (b.koff.toNat + i * ks) (n * ks) with
  | .error r => .error r
  | .ok k =>
    match (if ps = 0 then .ok ([], k.2) else k.2.engRead q.h0 (b.poff.toNat + i * ps) (n * ps)) with
    | .error r => .error r
    | .ok p =>
      let keys := splitElems ks k.1 n
      let pays := splitElems ps p.1 n
      .ok ((keys.zip pays).zipIdx.map (fun x =>
        { key := x.1.1, pay := if b.pw = 3 then i + x.2 else x.1.2, idx := i + x.2 : SortElem }), p.2)

/-- Elements written from output place i on. -/
def State.writeElems (s : State) (q : QEnt) (b : SortBody) (i : Nat) (xs : List SortElem) : State :=
  let ks := keyBytes b.kt.toNat
  let ps := payOut b.pw.toNat
  let t := s.engWrite (hAddr q.h1 (b.dkoff.toNat + i * ks)) (xs.flatMap (fun x => toBytes x.key ks))
  if ps = 0 then t else t.engWrite (hAddr q.h1 (b.dpoff.toNat + i * ps)) (xs.flatMap (fun x => toBytes x.pay ps))

/-- Whether writes of n elements from output place i on must wait. -/
def State.elemsWait (s : State) (q : QEnt) (b : SortBody) (i n : Nat) : Bool :=
  let ks := keyBytes b.kt.toNat
  let ps := payOut b.pw.toNat
  s.writeWaits (hAddr q.h1 (b.dkoff.toNat + i * ks)) (n * ks) ||
    (ps != 0 && s.writeWaits (hAddr q.h1 (b.dpoff.toNat + i * ps)) (n * ps))

/-- The order of a command. -/
def sortLt (b : SortBody) : Nat → Nat → Bool := precedes b.kt.toNat b.desc

/-- What an engine carries to the next unit. -/
def State.setAux (s : State) (l : List Nat) : State :=
  s.modCur s.turn.engine (fun x => x.modAct (fun a => { a with aux := l }))

/-! ## SORT, TOPK, MERGE, SELECT, SEARCH, UNIQ (R329) -/

/-- SORT: each run of 4,096 keys on its own. -/
def execSort (_ : TcHdr) (b : SortBody) (s : State) : Host.Outcome State Fault Refusal :=
  let n := b.n.toNat
  runEntry (b.n == 0) (sortChk (sortRanges b n n) (b.dkoff == b.koff && b.dpoff == b.poff)) (fun t a =>
    let lo := 4096 * a.prog
    let m := min 4096 (n - lo)
    if t.elemsWait a.ent b lo m then .wait
    else
      match t.readElems a.ent b lo m with
      | .error r => .fail r
      | .ok p =>
        let u := p.2.writeElems a.ent b lo (sortElems (sortLt b) p.1)
        if lo + 4096 ≥ n then .done u else .more u (a.prog + 1)) s

/-- Pairs of numbers as one list, and back. -/
def flatPairs (xs : List SortElem) : List Nat := xs.flatMap (fun x => [x.key, x.idx])

/-- The elements of a list of keys and indices. -/
def unflatPairs : List Nat → List SortElem
  | k :: i :: r => { key := k, pay := i, idx := i } :: unflatPairs r
  | _ => []

/-- Whether element x follows element a in the order (key, then index). -/
def followsElem (lt : Nat → Nat → Bool) (a x : SortElem) : Bool :=
  lt a.key x.key || (!lt x.key a.key && decide (a.idx < x.idx))

/-- An element put after every element that it does not precede. -/
def insertLater (lt : Nat → Nat → Bool) (x : SortElem) : List SortElem → List SortElem
  | [] => [x]
  | y :: ys => if lt x.key y.key then x :: y :: ys else y :: insertLater lt x ys

/-- The outputs of TOPK that a pop's checks cover. -/
def topkMax (b : SortBody) (k : BitVec 9) : Nat := min k.toNat b.n.toNat

/-- TOPK. -/
def execTopk (_ : TcHdr) (b : SortBody) (k : BitVec 9) (aen : Bool) (afti : BitVec 24) (s : State) :
    Host.Outcome State Fault Refusal :=
  let n := b.n.toNat
  let m := topkMax b k
  runEntry (b.n == 0) (sortChk (sortRanges b n m) false) (fun t a =>
    let lo := 4096 * a.prog
    let last := decide (lo + 4096 ≥ n)
    if last && t.elemsWait a.ent b 0 m then .wait
    else
      match (if aen then t.readElems a.ent b afti.toNat 1 else .ok ([], t)) with
      | .error r => .fail r
      | .ok ref =>
        match ref.2.readElems a.ent b lo (min 4096 (n - lo)) with
        | .error r => .fail r
        | .ok p =>
          let xs := p.1.filter (fun x => ref.1.all (fun y => followsElem (sortLt b) y x))
          let best := (xs.foldl (fun l x => (insertLater (sortLt b) x l).take k.toNat) (unflatPairs a.aux))
          if last then .done (p.2.writeElems a.ent b 0 best) else .more (p.2.setAux (flatPairs best)) (a.prog + 1)) s

/-- Outputs of MERGE from place k on: i keys of the first run are taken so far. -/
def State.mergeFrom (s : State) (q : QEnt) (b : SortBody) (n2 k i : Nat) : Nat → Except ErrAt (Nat × State)
  | 0 => .ok (i, s)
  | f + 1 =>
    let n := b.n.toNat
    let j := k - i
    if k ≥ n + n2 then .ok (i, s)
    else
      match (if i < n then s.readElems q b i 1 else .ok ([], s)) with
      | .error r => .error r
      | .ok x =>
        match (if j < n2 then x.2.readElems q b (n + j) 1 else .ok ([], x.2)) with
        | .error r => .error r
        | .ok y =>
          let first : Bool := match x.1, y.1 with
            | u :: _, v :: _ => !(sortLt b) v.key u.key
            | _ :: _, [] => true
            | [], _ => false
          let t := y.2.writeElems q b k (if first then x.1 else y.1)
          t.mergeFrom q b n2 (k + 1) (if first then i + 1 else i) f

/-- MERGE: of equal keys the first run's comes first. -/
def execMerge (_ : TcHdr) (b : SortBody) (n2 : BitVec 24) (s : State) : Host.Outcome State Fault Refusal :=
  let n := b.n.toNat + n2.toNat
  runEntry (b.n == 0 || n2 == 0) (sortChk (sortRanges b n n) false) (fun t a =>
    let lo := 4096 * a.prog
    let m := min 4096 (n - lo)
    if t.elemsWait a.ent b lo m then .wait
    else
      match t.mergeFrom a.ent b n2.toNat lo (a.aux.headD 0) m with
      | .error r => .fail r
      | .ok p => if lo + 4096 ≥ n then .done p.2 else .more (p.2.setAux [p.1]) (a.prog + 1)) s

/-- SELECT. -/
def execSelect (_ : TcHdr) (b : SortBody) (rank : BitVec 24) (s : State) : Host.Outcome State Fault Refusal :=
  let n := b.n.toNat
  runEntry (b.n == 0) (sortChk (sortRanges b n 1) false) (fun t a =>
    if t.elemsWait a.ent b 0 1 then .wait
    else
      match t.readElems a.ent b 0 n with
      | .error r => .fail r
      | .ok p => .done (p.2.writeElems a.ent b 0 ((sortElems (sortLt b) p.1).drop rank.toNat |>.take 1))) s

/-- The lower bound of a query as the loop of R329 computes it; the fuel bounds its turns. -/
def lowerBound (lt : Nat → Nat → Bool) (keys : List Nat) (q lo hi : Nat) : Nat → Nat
  | 0 => lo
  | f + 1 =>
    if lo < hi then
      let mid := (lo + hi) / 2
      if lt (keys.getD mid 0) q then lowerBound lt keys q (mid + 1) hi f else lowerBound lt keys q lo mid f
    else lo

/-- SEARCH: it ignores PW and DPOFF. -/
def execSearch (_ : TcHdr) (b : SortBody) (nq : BitVec 24) (s : State) : Host.Outcome State Fault Refusal :=
  let n := b.n.toNat
  let ks := keyBytes b.kt.toNat
  let rs : SortRanges :=
    { src := [(b.koff.toNat, n * ks), (b.poff.toNat, nq.toNat * ks)], dst := [(b.dkoff.toNat, nq.toNat * 4)] }
  runEntry (b.n == 0 || nq == 0) (sortChk rs false) (fun t a =>
    let lo := 4096 * a.prog
    let m := min 4096 (nq.toNat - lo)
    let d := hAddr a.ent.h1 (b.dkoff.toNat + 4 * lo)
    if t.writeWaits d (4 * m) then .wait
    else
      match t.engRead a.ent.h0 b.koff.toNat (n * ks) with
      | .error r => .fail r
      | .ok k =>
        match k.2.engRead a.ent.h0 (b.poff.toNat + lo * ks) (m * ks) with
        | .error r => .fail r
        | .ok p =>
          let keys := splitElems ks k.1 n
          let u := p.2.engWrite d
            ((splitElems ks p.1 m).flatMap (fun q => toBytes (lowerBound (sortLt b) keys q 0 n 25) 4))
          if lo + 4096 ≥ nq.toNat then .done u else .more u (a.prog + 1)) s

/-- The first occurrences among elements, after the key that was last kept. -/
def firstOccurrences (lt : Nat → Nat → Bool) : Option Nat → List SortElem → List SortElem
  | _, [] => []
  | none, x :: xs => x :: firstOccurrences lt (some x.key) xs
  | some k, x :: xs =>
    if lt k x.key || lt x.key k then x :: firstOccurrences lt (some x.key) xs else firstOccurrences lt (some k) xs

/-- UNIQ: aux holds the count so far and the key last kept. -/
def execUniq (_ : TcHdr) (b : SortBody) (coff : BitVec 40) (s : State) : Host.Outcome State Fault Refusal :=
  let n := b.n.toNat
  let rs := sortRanges b n n
  runEntry (b.n == 0) (sortChk { rs with dst := rs.dst ++ [(coff.toNat, 8)] } false) (fun t a =>
    let lo := 4096 * a.prog
    let m := min 4096 (n - lo)
    let c := a.aux.headD 0
    let dc := hAddr a.ent.h1 coff.toNat
    if t.elemsWait a.ent b c m || t.writeWaits dc 8 then .wait
    else
      match t.readElems a.ent b lo m with
      | .error r => .fail r
      | .ok p =>
        let xs := firstOccurrences (sortLt b) (a.aux[1]?) p.1
        let u := p.2.writeElems a.ent b c xs
        let c' := c + xs.length
        let key := match xs.getLast? with
          | some x => x.key
          | none => (a.aux[1]?).getD 0
        if lo + 4096 ≥ n then .done (u.engWrite dc (toBytes c' 8)) else .more (u.setAux [c', key]) (a.prog + 1)) s

end Sys2Proof.Machine
end

