-- ==== Sys2Proof/Machine/Shutter.lean ====
section
/-! DEFINITION. Shutter control (R331-R338) and the signal unit (R339). -/

namespace Sys2Proof.Machine

/-! ## Regions -/

/-- The range of its buffer that H1's view of an entry covers. -/
def State.entRange (s : State) (q : QEnt) : Nat × Nat := s.viewRange (siteOf q.core) q.h1

/-- The open region that H1's view is. -/
def State.exactRegion (s : State) (q : QEnt) : Option Nat :=
  let r := s.entRange q
  (s.regions.find? (fun p => p.2.bid == hBid q.h1 && p.2.lo == r.1 && p.2.hi == r.2)).map (fun p => p.1)

/-- The check of right U on H1, and of its region where the command needs an open one (R332). DEDUCED (log 44). -/
def regionChk (s : State) (q : QEnt) : Option EngErr :=
  firstErr [s.entErr q q.h1 0 0 .u, if (s.exactRegion q).isNone then some (EngErr.engine 0x205) else none]

/-- Whether an operator suits a buffer's storage (R332, ESTAT 0x204). -/
def uopSuits (uop : Nat) (b : Buf) : Bool :=
  !b.coded || (uop == 3 && b.served == .fp32) || (uop == 4 && b.served == .bf16)

/-- UOPEN's checks. DEDUCED (log 44). -/
def uopenChk (b : UopenBody) (s : State) (q : QEnt) : Option EngErr :=
  let bid := hBid q.h1
  let mine := s.regions.filter (fun p => p.2.bid == bid)
  let r := s.entRange q
  firstErr [s.entErr q q.h1 0 0 .u,
    if mine.any (fun p => p.2.uop != b.uop) then some (EngErr.engine 0x201) else none,
    if mine.any (fun p => decide (p.2.lo < r.2) && decide (r.1 < p.2.hi)) then some (EngErr.engine 0x202) else none,
    if 4096 ≤ s.regions.length then some (EngErr.engine 0x203) else none,
    if uopSuits b.uop.toNat (s.buf bid) then none else some (EngErr.engine 0x204)]

/-- UOPEN (R332). The region gets a number that no region had before, so that a stream or a pair that outlives its region names no
later one (R333). -/
def execUopen (_ : TcHdr) (b : UopenBody) (s : State) : Host.Outcome State Fault Refusal :=
  runEntry false (uopenChk b) (fun t a =>
    let bid := hBid a.ent.h1
    let r := t.entRange a.ent
    let reg : Region :=
      { bid := bid, lo := r.1, hi := r.2, uop := b.uop, nosp := b.nosp, spills := 0, rq := 0, part := a.ent.part,
        orcb := (t.buf bid).orcb }
    .done { t.updBuf bid (fun e => { e with uop := b.uop }) with regions := t.regions.set t.stamp reg, stamp := t.stamp + 1 }) s

/-- Whether a stream is attached to a region, or a pair emitted into it is not accepted. -/
def State.regionBusy (s : State) (k : Nat) : Bool :=
  s.contexts.any (fun x =>
      (match x.upd.att with
       | some a => a.2 == k
       | none => false) || x.upd.entries.any (fun e => e.any (fun p => p.region == k))) ||
    s.engines.any (fun e =>
      ((match e.2.cur with
        | some c => [c]
        | none => []) ++ e.2.saved).any (fun c => c.pairs.any (fun p => p.region == k)))

/-- Every bin of a region applied. -/
def State.applyRegion (s : State) (k : Nat) : State :=
  (s.bins.filter (fun p => p.2.region == k)).foldl (fun t p => t.applyBin p.1) s

/-- A region closed: UOP of its buffer returns to 0 with the last one. -/
def State.closeRegion (s : State) (k : Nat) : State :=
  let bid := (s.region k).bid
  let t := { s.applyRegion k with regions := s.regions.erase k }
  if t.regions.any (fun p => p.2.bid == bid) then t else t.updBuf bid (fun e => { e with uop := 0 })

/-- UCLOSE (R332). -/
def execUclose (_ : TcHdr) (s : State) : Host.Outcome State Fault Refusal :=
  runEntry false regionChk (fun t a =>
    match t.exactRegion a.ent with
    | none => .err (EngErr.engine 0x205)
    | some k => if t.regionBusy k then .wait else .done (t.closeRegion k)) s

/-- UQUOTA (R332, R336). -/
def execUquota (_ : TcHdr) (b : UquotaBody) (s : State) : Host.Outcome State Fault Refusal :=
  runEntry false (fun t q =>
      firstErr [regionChk t q, if b.ren then t.entErr q q.h0 b.roff.toNat 16 .w else none]) (fun t a =>
    match t.exactRegion a.ent with
    | none => .err (EngErr.engine 0x205)
    | some k =>
      let d := hAddr a.ent.h0 b.roff.toNat
      if b.ren && t.writeWaits d 16 then .wait
      else
        let u := { t with regions := t.regions.set k { t.region k with rq := b.rq } }
        let u := (List.range 8).foldl (fun v m => v.spillFor k m) u
        .done (if b.ren then u.engWrite d (toBytes (u.region k).spills.toNat 8 ++ toBytes (u.binsOf k) 8) else u)) s

/-- USPILL (R332). -/
def execUspill (_ : TcHdr) (b : UspillBody) (s : State) : Host.Outcome State Fault Refusal :=
  runEntry false regionChk (fun t a =>
    match t.exactRegion a.ent with
    | none => .err (EngErr.engine 0x205)
    | some k =>
      let r := t.region k
      let u := { t with regions := t.regions.set k { r with nosp := b.nosp, spills := if b.clr then 0 else r.spills } }
      .done (if b.apply then u.applyRegion k else u)) s

/-! ## The signal unit (R339) -/

/-- The check of a signal command. -/
def sigChk (soff : Nat) (r : Right) (s : State) (q : QEnt) : Option EngErr := s.entErr q q.h1 soff 8 r

/-- SIGADD (R339). -/
def execSigadd (_ : TcHdr) (b : SigBody) (s : State) : Host.Outcome State Fault Refusal :=
  runEntry false (sigChk b.soff.toNat .w) (sigUnit b.soff.toNat false b.val) s

/-- SIGSET (R339). -/
def execSigset (_ : TcHdr) (b : SigBody) (s : State) : Host.Outcome State Fault Refusal :=
  runEntry false (sigChk b.soff.toNat .w) (sigUnit b.soff.toNat true b.val) s

/-- SIGWAIT (R339): the entry holds its queue until its comparison holds. -/
def execSigwait (_ : TcHdr) (b : SigwaitBody) (s : State) : Host.Outcome State Fault Refusal :=
  runEntry false (sigChk b.soff.toNat .r) (fun t a =>
    match t.engRead a.ent.h1 b.soff.toNat 8 with
    | .error r => .fail r
    | .ok p => if sigCompare b.cmp.toNat (BitVec.ofNat 64 (ofBytes p.1)) b.val then .done p.2 else .more p.2 a.prog) s

/-- Whether a SIGWAIT's timeout has passed. DEDUCED (log 21). -/
def sigwaitDue (s : State) (a : Act) : Bool :=
  let tout := fld a.ent.word 99 18
  opcOf a.ent.word == 0xA2 && a.checked && tout != 0 && decide (a.start + tout ≤ s.tick)

/-- SIGWAIT_TIMEOUT (R339): the SIGWAIT that the turn's engine holds has waited TOUT ticks. DEDUCED (log 21). -/
def execSigwaitTimeout (s : State) : Host.Outcome State Fault Refusal :=
  let e := s.turn.engine
  match (s.eng e).cur with
  | none => .next s
  | some c => if !c.done && sigwaitDue s c.act then .next (s.stopEntry e (EngErr.engine 0x301)) else .next s

end Sys2Proof.Machine
end

