-- ==== Sys2Proof/Machine/Dispatch.lean ====
section
/-! DEFINITION. The meaning of every instruction of the opcode table: one arm per constructor. -/

namespace Sys2Proof.Machine

/-- The meaning of an instruction. -/
def exec (i : Instr) (s : State) : Host.Outcome State Fault Refusal :=
  match i with
  | .move b => Sys2Proof.Machine.execMove b s
  | .resultWrite => Sys2Proof.Machine.execResultWrite s
  | .add u => Sys2Proof.Machine.execAdd u s
  | .sub u => Sys2Proof.Machine.execSub u s
  | .addw u => Sys2Proof.Machine.execAddw u s
  | .subw u => Sys2Proof.Machine.execSubw u s
  | .and u => Sys2Proof.Machine.execAnd u s
  | .or u => Sys2Proof.Machine.execOr u s
  | .xor u => Sys2Proof.Machine.execXor u s
  | .andn u => Sys2Proof.Machine.execAndn u s
  | .shl u => Sys2Proof.Machine.execShl u s
  | .shr u => Sys2Proof.Machine.execShr u s
  | .sra u => Sys2Proof.Machine.execSra u s
  | .shlw u => Sys2Proof.Machine.execShlw u s
  | .shrw u => Sys2Proof.Machine.execShrw u s
  | .sraw u => Sys2Proof.Machine.execSraw u s
  | .rol u => Sys2Proof.Machine.execRol u s
  | .ror u => Sys2Proof.Machine.execRor u s
  | .clz u => Sys2Proof.Machine.execClz u s
  | .ctz u => Sys2Proof.Machine.execCtz u s
  | .popc u => Sys2Proof.Machine.execPopc u s
  | .brev u => Sys2Proof.Machine.execBrev u s
  | .bswap u => Sys2Proof.Machine.execBswap u s
  | .eq u => Sys2Proof.Machine.execEq u s
  | .ne u => Sys2Proof.Machine.execNe u s
  | .lt u => Sys2Proof.Machine.execLt u s
  | .ltu u => Sys2Proof.Machine.execLtu u s
  | .le u => Sys2Proof.Machine.execLe u s
  | .leu u => Sys2Proof.Machine.execLeu u s
  | .min u => Sys2Proof.Machine.execMin u s
  | .minu u => Sys2Proof.Machine.execMinu u s
  | .max u => Sys2Proof.Machine.execMax u s
  | .maxu u => Sys2Proof.Machine.execMaxu u s
  | .sel u => Sys2Proof.Machine.execSel u s
  | .sext8 u => Sys2Proof.Machine.execSext8 u s
  | .sext16 u => Sys2Proof.Machine.execSext16 u s
  | .sext32 u => Sys2Proof.Machine.execSext32 u s
  | .zext8 u => Sys2Proof.Machine.execZext8 u s
  | .zext16 u => Sys2Proof.Machine.execZext16 u s
  | .zext32 u => Sys2Proof.Machine.execZext32 u s
  | .extr u => Sys2Proof.Machine.execExtr u s
  | .ins u => Sys2Proof.Machine.execIns u s
  | .pass u => Sys2Proof.Machine.execPass u s
  | .mull => Sys2Proof.Machine.execMull s
  | .mulh => Sys2Proof.Machine.execMulh s
  | .mulhu => Sys2Proof.Machine.execMulhu s
  | .mulw => Sys2Proof.Machine.execMulw s
  | .div => Sys2Proof.Machine.execDiv s
  | .divu => Sys2Proof.Machine.execDivu s
  | .rem => Sys2Proof.Machine.execRem s
  | .remu => Sys2Proof.Machine.execRemu s
  | .jmp => Sys2Proof.Machine.execJmp s
  | .jmpr => Sys2Proof.Machine.execJmpr s
  | .call => Sys2Proof.Machine.execCall s
  | .ret => Sys2Proof.Machine.execRet s
  | .loop => Sys2Proof.Machine.execLoop s
  | .trap => Sys2Proof.Machine.execTrap s
  | .halt => Sys2Proof.Machine.execHalt s
  | .nopw => Sys2Proof.Machine.execNopw s
  | .nopwPauseEnd => Sys2Proof.Machine.execNopwPauseEnd s
  | .csrr => Sys2Proof.Machine.execCsrr s
  | .csrw => Sys2Proof.Machine.execCsrw s
  | .csrs => Sys2Proof.Machine.execCsrs s
  | .csrc => Sys2Proof.Machine.execCsrc s
  | .alloc => Sys2Proof.Machine.execAlloc s
  | .allocHoldEnd => Sys2Proof.Machine.execAllocHoldEnd s
  | .free => Sys2Proof.Machine.execFree s
  | .retain => Sys2Proof.Machine.execRetain s
  | .hand => Sys2Proof.Machine.execHand s
  | .hinfo => Sys2Proof.Machine.execHinfo s
  | .hld => Sys2Proof.Machine.execHld s
  | .tret => Sys2Proof.Machine.execTret s
  | .yield => Sys2Proof.Machine.execYield s
  | .dtrd => Sys2Proof.Machine.execDtrd s
  | .diag => Sys2Proof.Machine.execDiag s
  | .ldb => Sys2Proof.Machine.execLdb s
  | .ldbu => Sys2Proof.Machine.execLdbu s
  | .ldh => Sys2Proof.Machine.execLdh s
  | .ldhu => Sys2Proof.Machine.execLdhu s
  | .ldw => Sys2Proof.Machine.execLdw s
  | .ldwu => Sys2Proof.Machine.execLdwu s
  | .ldd => Sys2Proof.Machine.execLdd s
  | .stb => Sys2Proof.Machine.execStb s
  | .sth => Sys2Proof.Machine.execSth s
  | .stw => Sys2Proof.Machine.execStw s
  | .std => Sys2Proof.Machine.execStd s
  | .gldb => Sys2Proof.Machine.execGldb s
  | .gldh => Sys2Proof.Machine.execGldh s
  | .gldw => Sys2Proof.Machine.execGldw s
  | .gldd => Sys2Proof.Machine.execGldd s
  | .gstb => Sys2Proof.Machine.execGstb s
  | .gsth => Sys2Proof.Machine.execGsth s
  | .gstw => Sys2Proof.Machine.execGstw s
  | .gstd => Sys2Proof.Machine.execGstd s
  | .pref => Sys2Proof.Machine.execPref s
  | .acq => Sys2Proof.Machine.execAcq s
  | .tacq => Sys2Proof.Machine.execTacq s
  | .rel => Sys2Proof.Machine.execRel s
  | .fence => Sys2Proof.Machine.execFence s
  | .xfence => Sys2Proof.Machine.execXfence s
  | .waitv => Sys2Proof.Machine.execWaitv s
  | .waitc => Sys2Proof.Machine.execWaitc s
  | .waitt => Sys2Proof.Machine.execWaitt s
  | .ffr => Sys2Proof.Machine.execFfr s
  | .fladd => Sys2Proof.Machine.execFladd s
  | .flset => Sys2Proof.Machine.execFlset s
  | .flrd => Sys2Proof.Machine.execFlrd s
  | .sigrd => Sys2Proof.Machine.execSigrd s
  | .sigwt => Sys2Proof.Machine.execSigwt s
  | .push => Sys2Proof.Machine.execPush s
  | .pusht => Sys2Proof.Machine.execPusht s
  | .qfree => Sys2Proof.Machine.execQfree s
  | .updOpen => Sys2Proof.Machine.execUpdOpen s
  | .emit => Sys2Proof.Machine.execEmit s
  | .emitv => Sys2Proof.Machine.execEmitv s
  | .flush => Sys2Proof.Machine.execFlush s
  | .close => Sys2Proof.Machine.execClose s
  | .sopen => Sys2Proof.Machine.execSopen s
  | .sstart => Sys2Proof.Machine.execSstart s
  | .spop => Sys2Proof.Machine.execSpop s
  | .sstat => Sys2Proof.Machine.execSstat s
  | .sclose => Sys2Proof.Machine.execSclose s
  | .streamGenerate => Sys2Proof.Machine.execStreamGenerate s
  | .streamEntryLand => Sys2Proof.Machine.execStreamEntryLand s
  | .vadd u => Sys2Proof.Machine.execVadd u s
  | .vsub u => Sys2Proof.Machine.execVsub u s
  | .vmul u => Sys2Proof.Machine.execVmul u s
  | .vfma u => Sys2Proof.Machine.execVfma u s
  | .vfms u => Sys2Proof.Machine.execVfms u s
  | .vfnma u => Sys2Proof.Machine.execVfnma u s
  | .vfmac u => Sys2Proof.Machine.execVfmac u s
  | .vmin u => Sys2Proof.Machine.execVmin u s
  | .vmax u => Sys2Proof.Machine.execVmax u s
  | .vabs u => Sys2Proof.Machine.execVabs u s
  | .vneg u => Sys2Proof.Machine.execVneg u s
  | .vcmp u => Sys2Proof.Machine.execVcmp u s
  | .vsel u => Sys2Proof.Machine.execVsel u s
  | .vcvt u => Sys2Proof.Machine.execVcvt u s
  | .vrnd u => Sys2Proof.Machine.execVrnd u s
  | .viadd u => Sys2Proof.Machine.execViadd u s
  | .visub u => Sys2Proof.Machine.execVisub u s
  | .vimul u => Sys2Proof.Machine.execVimul u s
  | .vimulh u => Sys2Proof.Machine.execVimulh u s
  | .vimad u => Sys2Proof.Machine.execVimad u s
  | .vimin u => Sys2Proof.Machine.execVimin u s
  | .vimax u => Sys2Proof.Machine.execVimax u s
  | .viabs u => Sys2Proof.Machine.execViabs u s
  | .vicmp u => Sys2Proof.Machine.execVicmp u s
  | .vand u => Sys2Proof.Machine.execVand u s
  | .vor u => Sys2Proof.Machine.execVor u s
  | .vxor u => Sys2Proof.Machine.execVxor u s
  | .vshl u => Sys2Proof.Machine.execVshl u s
  | .vshr u => Sys2Proof.Machine.execVshr u s
  | .vsra u => Sys2Proof.Machine.execVsra u s
  | .vrot u => Sys2Proof.Machine.execVrot u s
  | .vdot4 u => Sys2Proof.Machine.execVdot4 u s
  | .vdotb u => Sys2Proof.Machine.execVdotb u s
  | .rowget => Sys2Proof.Machine.execRowget s
  | .rowput => Sys2Proof.Machine.execRowput s
  | .colget => Sys2Proof.Machine.execColget s
  | .colput => Sys2Proof.Machine.execColput s
  | .vtrn => Sys2Proof.Machine.execVtrn s
  | .vperm => Sys2Proof.Machine.execVperm s
  | .vbcast => Sys2Proof.Machine.execVbcast s
  | .vred => Sys2Proof.Machine.execVred s
  | .vscan => Sys2Proof.Machine.execVscan s
  | .vcomp => Sys2Proof.Machine.execVcomp s
  | .vexp => Sys2Proof.Machine.execVexp s
  | .vextr => Sys2Proof.Machine.execVextr s
  | .vins => Sys2Proof.Machine.execVins s
  | .viota => Sys2Proof.Machine.execViota s
  | .vmpop => Sys2Proof.Machine.execVmpop s
  | .vshp => Sys2Proof.Machine.execVshp s
  | .vgthl => Sys2Proof.Machine.execVgthl s
  | .vsctl => Sys2Proof.Machine.execVsctl s
  | .longOpComplete => Sys2Proof.Machine.execLongOpComplete s
  | .vld => Sys2Proof.Machine.execVld s
  | .vst => Sys2Proof.Machine.execVst s
  | .vlds => Sys2Proof.Machine.execVlds s
  | .vsts => Sys2Proof.Machine.execVsts s
  | .vld2d => Sys2Proof.Machine.execVld2d s
  | .vst2d => Sys2Proof.Machine.execVst2d s
  | .vgld => Sys2Proof.Machine.execVgld s
  | .vgst => Sys2Proof.Machine.execVgst s
  | .vpref => Sys2Proof.Machine.execVpref s
  | .rsqe => Sys2Proof.Machine.execRsqe s
  | .rcpe => Sys2Proof.Machine.execRcpe s
  | .exp2e => Sys2Proof.Machine.execExp2e s
  | .log2e => Sys2Proof.Machine.execLog2e s
  | .sqrt => Sys2Proof.Machine.execSqrt s
  | .xwin => Sys2Proof.Machine.execXwin s
  | .xclr => Sys2Proof.Machine.execXclr s
  | .xadd => Sys2Proof.Machine.execXadd s
  | .xadd2 => Sys2Proof.Machine.execXadd2 s
  | .xadd3 => Sys2Proof.Machine.execXadd3 s
  | .xdot => Sys2Proof.Machine.execXdot s
  | .xsgn => Sys2Proof.Machine.execXsgn s
  | .xrnd => Sys2Proof.Machine.execXrnd s
  | .xget => Sys2Proof.Machine.execXget s
  | .xflg => Sys2Proof.Machine.execXflg s
  | .xmov => Sys2Proof.Machine.execXmov s
  | .xmovLoad => Sys2Proof.Machine.execXmovLoad s
  | .xneg => Sys2Proof.Machine.execXneg s
  | .loadLanding => Sys2Proof.Machine.execLoadLanding s
  | .latchFenceLanding => Sys2Proof.Machine.execLatchFenceLanding s
  | .memTimeout => Sys2Proof.Machine.execMemTimeout s
  | .sharedScratchServe => Sys2Proof.Machine.execSharedScratchServe s
  | .wcLineWriteout => Sys2Proof.Machine.execWcLineWriteout s
  | .storeAck => Sys2Proof.Machine.execStoreAck s
  | .storeReplayRetry => Sys2Proof.Machine.execStoreReplayRetry s
  | .unresolvedStoreDiscard => Sys2Proof.Machine.execUnresolvedStoreDiscard s
  | .extentMigration => Sys2Proof.Machine.execExtentMigration s
  | .extentDemotion => Sys2Proof.Machine.execExtentDemotion s
  | .tier2DeviceFailure mem => Sys2Proof.Machine.execTier2DeviceFailure mem s
  | .uncorrectableError loc => Sys2Proof.Machine.execUncorrectableError loc s
  | .latchGrant => Sys2Proof.Machine.execLatchGrant s
  | .acqTimeout => Sys2Proof.Machine.execAcqTimeout s
  | .sigwtTimeout => Sys2Proof.Machine.execSigwtTimeout s
  | .waitEnd => Sys2Proof.Machine.execWaitEnd s
  | .waitTimeout => Sys2Proof.Machine.execWaitTimeout s
  | .remoteFladdArrival => Sys2Proof.Machine.execRemoteFladdArrival s
  | .tagCompletion => Sys2Proof.Machine.execTagCompletion s
  | .elasticBufferMove => Sys2Proof.Machine.execElasticBufferMove s
  | .pairAccept => Sys2Proof.Machine.execPairAccept s
  | .copy h b => Sys2Proof.Machine.execCopy h b s
  | .copyx h b => Sys2Proof.Machine.execCopyx h b s
  | .fill h b => Sys2Proof.Machine.execFill h b s
  | .accw h b => Sys2Proof.Machine.execAccw h b s
  | .atom h b => Sys2Proof.Machine.execAtom h b s
  | .chain h b => Sys2Proof.Machine.execChain h b s
  | .sigop h b => Sys2Proof.Machine.execSigop h b s
  | .xfen h b => Sys2Proof.Machine.execXfen h b s
  | .coll h b => Sys2Proof.Machine.execColl h b s
  | .mlease h b => Sys2Proof.Machine.execMlease h b s
  | .leaseGrant => Sys2Proof.Machine.execLeaseGrant s
  | .mrelease h => Sys2Proof.Machine.execMrelease h s
  | .mloadw h b => Sys2Proof.Machine.execMloadw h b s
  | .mloada h b => Sys2Proof.Machine.execMloada h b s
  | .mmul h b => Sys2Proof.Machine.execMmul h b s
  | .mzero h b => Sys2Proof.Machine.execMzero h b s
  | .mstore h b => Sys2Proof.Machine.execMstore h b s
  | .mepi h b => Sys2Proof.Machine.execMepi h b s
  | .wload h b => Sys2Proof.Machine.execWload h b s
  | .wrun h b => Sys2Proof.Machine.execWrun h b s
  | .wstat h b => Sys2Proof.Machine.execWstat h b s
  | .isect h b => Sys2Proof.Machine.execIsect h b s
  | .walkerLdw wd wa imm => Sys2Proof.Machine.execWalkerLdw wd wa imm s
  | .walkerLdh wd wa imm => Sys2Proof.Machine.execWalkerLdh wd wa imm s
  | .walkerLdb wd wa imm => Sys2Proof.Machine.execWalkerLdb wd wa imm s
  | .walkerAddw wd wa wb => Sys2Proof.Machine.execWalkerAddw wd wa wb s
  | .walkerSubw wd wa wb => Sys2Proof.Machine.execWalkerSubw wd wa wb s
  | .walkerAndw wd wa wb => Sys2Proof.Machine.execWalkerAndw wd wa wb s
  | .walkerShrw wd wa imm => Sys2Proof.Machine.execWalkerShrw wd wa imm s
  | .walkerPopc wd wa => Sys2Proof.Machine.execWalkerPopc wd wa s
  | .pfxp wd wa wb => Sys2Proof.Machine.execPfxp wd wa wb s
  | .bnz wa imm => Sys2Proof.Machine.execBnz wa imm s
  | .bz wa imm => Sys2Proof.Machine.execBz wa imm s
  | .walkerJmp imm => Sys2Proof.Machine.execWalkerJmp imm s
  | .walkerEmit wa wb => Sys2Proof.Machine.execWalkerEmit wa wb s
  | .emrow wa wb => Sys2Proof.Machine.execEmrow wa wb s
  | .nextt => Sys2Proof.Machine.execNextt s
  | .waita => Sys2Proof.Machine.execWaita s
  | .istep wd wa wb => Sys2Proof.Machine.execIstep wd wa wb s
  | .done => Sys2Proof.Machine.execDone s
  | .sort h b => Sys2Proof.Machine.execSort h b s
  | .topk h b k aen afti => Sys2Proof.Machine.execTopk h b k aen afti s
  | .merge h b n2 => Sys2Proof.Machine.execMerge h b n2 s
  | .select h b rank => Sys2Proof.Machine.execSelect h b rank s
  | .search h b nq => Sys2Proof.Machine.execSearch h b nq s
  | .uniq h b coff => Sys2Proof.Machine.execUniq h b coff s
  | .uopen h b => Sys2Proof.Machine.execUopen h b s
  | .uclose h => Sys2Proof.Machine.execUclose h s
  | .uquota h b => Sys2Proof.Machine.execUquota h b s
  | .uspill h b => Sys2Proof.Machine.execUspill h b s
  | .sigadd h b => Sys2Proof.Machine.execSigadd h b s
  | .sigset h b => Sys2Proof.Machine.execSigset h b s
  | .sigwait h b => Sys2Proof.Machine.execSigwait h b s
  | .sigwaitTimeout => Sys2Proof.Machine.execSigwaitTimeout s
  | .launchPacketWrite part q off bytes pkt => Sys2Proof.Machine.execLaunchPacketWrite part q off bytes pkt s
  | .windowCopyEnqueue => Sys2Proof.Machine.execWindowCopyEnqueue s
  | .invoke p => Sys2Proof.Machine.execInvoke p s
  | .barrier p => Sys2Proof.Machine.execBarrier p s
  | .barrierTimeout => Sys2Proof.Machine.execBarrierTimeout s
  | .signal p => Sys2Proof.Machine.execSignal p s
  | .copyPacket p => Sys2Proof.Machine.execCopyPacket p s
  | .reset p => Sys2Proof.Machine.execReset p s
  | .nodeDispatch => Sys2Proof.Machine.execNodeDispatch s
  | .strandStart => Sys2Proof.Machine.execStrandStart s
  | .nodeRetire => Sys2Proof.Machine.execNodeRetire s
  | .ageing => Sys2Proof.Machine.execAgeing s
  | .sliceEnd => Sys2Proof.Machine.execSliceEnd s
  | .cut => Sys2Proof.Machine.execCut s
  | .contextSwitch => Sys2Proof.Machine.execContextSwitch s
  | .trapEntry => Sys2Proof.Machine.execTrapEntry s
  | .fault => Sys2Proof.Machine.execFault s
  | .siteStateChange site dest => Sys2Proof.Machine.execSiteStateChange site dest s
  | .drainComplete site => Sys2Proof.Machine.execDrainComplete site s
  | .calibrationDone site pass => Sys2Proof.Machine.execCalibrationDone site pass s
  | .forcedDrain site => Sys2Proof.Machine.execForcedDrain site s
  | .governorStep => Sys2Proof.Machine.execGovernorStep s
  | .thermalLimit site limit => Sys2Proof.Machine.execThermalLimit site limit s
  | .go core => Sys2Proof.Machine.execGo core s
  | .apertureAccess part wr off bytes data => Sys2Proof.Machine.execApertureAccess part wr off bytes data s
  | .registerWrite r v => Sys2Proof.Machine.execRegisterWrite r v s
  | .resume node => Sys2Proof.Machine.execResume node s
  | .skip node => Sys2Proof.Machine.execSkip node s
  | .abortNode node => Sys2Proof.Machine.execAbortNode node s
  | .abortGraph rcb => Sys2Proof.Machine.execAbortGraph rcb s
  | .kill => Sys2Proof.Machine.execKill s
  | .suspend => Sys2Proof.Machine.execSuspend s
  | .continueCmd => Sys2Proof.Machine.execContinueCmd s
  | .load slot x0 x1 x2 x3 => Sys2Proof.Machine.execLoad slot x0 x1 x2 x3 s
  | .unpin slot => Sys2Proof.Machine.execUnpin slot s
  | .halloc size attr => Sys2Proof.Machine.execHalloc size attr s
  | .exportCmd idx handle => Sys2Proof.Machine.execExportCmd idx handle s
  | .wexport idx q => Sys2Proof.Machine.execWexport idx q s
  | .rcbwr idx w0 w1 w2 w3 => Sys2Proof.Machine.execRcbwr idx w0 w1 w2 w3 s
  | .jobnew => Sys2Proof.Machine.execJobnew s
  | .jobdel idx => Sys2Proof.Machine.execJobdel idx s
  | .holdwr x h1 h2 h3 => Sys2Proof.Machine.execHoldwr x h1 h2 h3 s
  | .qcreate q w0 w1 => Sys2Proof.Machine.execQcreate q w0 w1 s
  | .qdestroy q => Sys2Proof.Machine.execQdestroy q s
  | .drain site => Sys2Proof.Machine.execDrain site s
  | .recal site => Sys2Proof.Machine.execRecal site s
  | .returnCmd site => Sys2Proof.Machine.execReturnCmd site s
  | .keyreq slot => Sys2Proof.Machine.execKeyreq slot s
  | .frec n => Sys2Proof.Machine.execFrec n s
  | .imgopen slot => Sys2Proof.Machine.execImgopen slot s
  | .imgwrite off len => Sys2Proof.Machine.execImgwrite off len s
  | .imgclose => Sys2Proof.Machine.execImgclose s
  | .activate => Sys2Proof.Machine.execActivate s
  | .activationReset => Sys2Proof.Machine.execActivationReset s
  | .setpkg n => Sys2Proof.Machine.execSetpkg n s
  | .leave => Sys2Proof.Machine.execLeave s
  | .join => Sys2Proof.Machine.execJoin s
  | .route pkg ports => Sys2Proof.Machine.execRoute pkg ports s
  | .boot => Sys2Proof.Machine.execBoot s
  | .flitRetry port => Sys2Proof.Machine.execFlitRetry port s
  | .laneRetrain port => Sys2Proof.Machine.execLaneRetrain port s
  | .ucieLinkRetrain link ok => Sys2Proof.Machine.execUcieLinkRetrain link ok s
  | .tier2DeviceJoin mem => Sys2Proof.Machine.execTier2DeviceJoin mem s
  | .collArrival u => Sys2Proof.Machine.execCollArrival u s
  | .maskWrite part m => Sys2Proof.Machine.execMaskWrite part m s
  | .partitionPortMove part port => Sys2Proof.Machine.execPartitionPortMove part port s
  | .spdmRequest r => Sys2Proof.Machine.execSpdmRequest r s

end Sys2Proof.Machine
end

