-- ==== Sys2Proof/Machine/Regs.lean ====
section
/-! DEFINITION. The registers as they are read from outside (R5): a partition's pages (R286, R408-R410), a management mailbox's page and the
discovery table (R352, R425), the tables of the hub and the MEMs, the boot mailboxes (R47) and PLDM's readings (R424). A write-only field, a reserved one and a place with no
register read 0. -/

namespace Sys2Proof.Machine

/-- A word of fields, each with the place of its lowest bit. -/
def wordOf (fs : List (Nat × Nat)) : Word := BitVec.ofNat 64 (fs.foldl (fun (a : Nat) f => a + f.2 * 2 ^ f.1) 0)

/-- The code of a launch queue's state (R286). -/
def LqSt.code : LqSt → Nat
  | .running => 0
  | .frozen => 1
  | .suspended => 2
  | .aborted => 3

/-- A word of a launch queue's page (R286): PKT is write-only. -/
def LaunchQ.pageWord (q : LaunchQ) (off : Nat) : Word :=
  if off = 0x040 then wordOf [(32, q.acode.toNat), (16, q.drops.toNat), (8, q.st.code), (0, q.free)]
  else if off = 0x048 then wordOf [(0, q.seq.toNat)]
  else if 0x100 ≤ off ∧ off < 0x300 then q.stat.get ((off - 0x100) / 8) 0
  else 0

/-- The word that a command register reads: BUSY, OP and STATUS (R409, R425). -/
def goWord (busy : Bool) (op status : Nat) : Word := wordOf [(63, b2n busy), (16, op), (0, status)]

/-- The ring of the fault domain that FSEL selects, or none for a domain outside the partition (R410). -/
def State.shownRing (s : State) (p : Nat) : Option Ring :=
  let i := (s.part p).fsel.toNat
  if i ≠ 0 ∧ s.rcbOfPart p i then some (s.ring i) else none

/-- A word of the ring and aperture control page (R410). -/
def State.controlWord (s : State) (p off : Nat) : Word :=
  let x := s.part p
  match off / 8 with
  | 0 => wordOf [(0, x.fsel.toNat)]
  | 1 => (match s.shownRing p with
    | some g => wordOf [(7, g.recs.length), (0, g.head.toNat)]
    | none => 0)
  | 2 => wordOf [(48, x.axi.toNat), (30, x.abase.toNat)]
  | 3 => wordOf [(32, x.aperr.toNat), (0, x.evovf.toNat)]
  | _ => 0

/-- A word of the fault ring that FSEL selects (R408); what a place that holds no record reads is open (log 4). DESIGN CHOICE (log 81). -/
def State.faultRingWord (s : State) (p off : Nat) : Word :=
  match s.shownRing p with
  | none => 0
  | some g =>
    match g.recs[(off / 64 + 64 - g.head.toNat) % 64]? with
    | some r => (r >>> (off % 64 / 8 * 64)).setWidth 64
    | none => Config.freeWord s.draws

/-- A word of the event ring (R408): record n stands at n modulo 256; what a place that no event has reached reads is open (log 4).
DESIGN CHOICE (log 81). -/
def State.eventRingWord (s : State) (p off : Nat) : Word :=
  let x := s.part p
  let first := x.evcount - x.events.length
  match x.events[(off / 16 + 256 - first % 256) % 256]? with
  | some e => if off % 16 < 8 then e.1 else e.2
  | none => Config.freeWord s.draws

/-- The code of MSTATE's fields (R425). -/
def Mgmt.stateWord (g : Mgmt) : Word :=
  wordOf [(48, g.fsvn.toNat), (32, g.rsvn.toNat), (16, g.pkg.toNat), (15, b2n g.indom), (3, b2n g.staged), (2, b2n g.slot), (0, g.mode.toNat)]

/-- A word of a management mailbox's page (R425). -/
def Mgmt.pageWord (g : Mgmt) (box off : Nat) : Word :=
  let x := g.box box
  if off < 0x038 then x.mw.get (off / 8) 0
  else if off / 8 = 7 then goWord x.busy x.op.toNat x.status.toNat
  else if off / 8 = 8 then g.stateWord
  else if 0x800 ≤ off ∧ off < 0x1000 then x.mdata.get ((off - 0x800) / 8) 0
  else 0

/-! ## The tables (R288, R341, R356, R358, R360-R363) -/

/-- The code of a node's state (R341). -/
def NodeSt.code : NodeSt → Nat
  | .waiting => 0
  | .ready => 1
  | .dispatched => 2
  | .running => 3
  | .suspended => 4
  | .draining => 5
  | .faulted => 6
  | .retired => 7
  | .aborted => 8

/-- A word of a node entry (R341): w0-w3, then the eight words of ARGS. -/
def Node.word (n : Node) (w : Nat) : Word :=
  match w with
  | 0 => wordOf [(48, n.pend.toNat), (44, n.st.code), (43, b2n n.pinh), (40, n.prio.toNat), (36, n.width.toNat), (27, n.scr.toNat),
      (17, n.flags.toNat), (16, b2n n.grid), (0, n.rgen.toNat)]
  | 1 => n.prefWord
  | 2 => wordOf [(48, n.succs.length), (0, n.argrec.toNat)]
  | 3 => wordOf [(40, n.stencil.toNat), (30, n.gxl.toNat), (20, n.gyl.toNat), (0, n.slist.toNat)]
  | _ => if w < 12 then (n.args >>> (64 * (w - 4))).setWidth 64 else 0

/-- A word of a resident slot (R356). -/
def Slot.word (x : Slot) (w : Nat) : Word :=
  match w with
  | 0 => wordOf [(61, x.state.toNat), (56, x.reason.toNat), (48, x.nimg.toNat), (40, x.sgen.toNat), (16, x.nnode.toNat), (0, x.nhand.toNat)]
  | 1 => x.img0
  | 2 => x.img1
  | 3 => x.img2
  | 4 => x.img3
  | 5 => wordOf [(0, x.rcnt.toNat)]
  | 6 => x.rtpl0
  | 7 => x.rtpl1
  | _ => 0

/-- A word of a region control block (R358). -/
def Rcb.word (r : Rcb) (w : Nat) : Word :=
  match w with
  | 0 => wordOf [(62, r.level.toNat), (56, r.part.toNat), (51, r.inh.toNat), (45, r.prio.toNat), (42, r.ceil.toNat), (40, r.policy.toNat),
      (38, r.state.toNat), (0, r.parent.toNat)]
  | 1 => wordOf [(32, r.budget.toNat), (0, r.used.toNat)]
  | 2 => wordOf [(32, r.binq.toNat), (0, r.binused.toNat)]
  | 3 => wordOf [(0, r.age.toNat)]
  | 4 => wordOf [(0, r.ovf.toNat)]
  | _ => 0

/-- A word of a launch-queue descriptor (R363). -/
def LaunchQ.descWord (q : LaunchQ) (w : Nat) : Word :=
  match w with
  | 0 => wordOf [(62, q.st.code), (61, b2n q.v), (0, q.job.toNat)]
  | 1 => wordOf [(48, q.csx.toNat), (0, q.csoff.toNat)]
  | 2 => wordOf [(0, q.seq.toNat)]
  | 3 => wordOf [(0, q.acode.toNat)]
  | _ => 0

/-- The readable word of a key slot (R360). -/
def Key.word (k : Key) : Word := wordOf [(63, b2n k.valid), (56, k.part.toNat), (0, k.nbuf.toNat)]

/-- A format range register (R361). -/
def Range.word (r : Range) : Word :=
  wordOf [(63, b2n r.v), (60, r.stf.toNat), (57, r.bw.toNat), (56, b2n r.srv), (55, b2n r.dit), (51, r.dph.toNat), (27, r.base.toNat),
    (3, r.next.toNat)]

/-- The word of a latch entry (R362), with a waiter queue given as wq. -/
def Latch.word (l : Latch) (part num wq : Nat) : Word :=
  wordOf [(62, l.mode.toNat), (61, b2n l.abh), (55, part), (39, num), (31, if l.mode = 1 then l.holders.length else 0),
    (23, if l.mode = 2 then (l.holders.headD (0, 0)).1 else 0), (0, wq)]

/-- A word of a table as a partition reads it, or firmware (R5). An entry that is another partition's reads 0, and how WQ names the head of
a queue that is not empty is open (log 4). DESIGN CHOICE (log 81). -/
def State.tableWord (s : State) (fw : Bool) (p : Nat) (t : HubTable) (i w : Nat) : Word :=
  match t with
  | .node => (match s.nodes.find i with
    | some n => if fw || s.nodePart n == p then n.word w else 0
    | none => 0)
  | .slot => if i < 256 then ((s.part p).slot i).word w else 0
  | .rcb => if fw || (i != 0 && s.rcbOfPart p i) then (s.rcb i).word w else 0
  | .queueDesc => if i < 16 then ((s.part p).queue i).descWord w else 0
  | .exportEntry => (s.part p).exportAt i
  | .key =>
    let k := s.keys.get i Key.zero
    if fw || k.part.toNat == p then k.word else 0
  | .range =>
    let r := s.ranges.get i Range.zero
    if fw || (r.v && (s.buf r.bid).orcb != 0 && s.rcbOfPart p (s.buf r.bid).orcb) then r.word else 0
  | .latch => (match s.latches.find (latchKey p i) with
    | some l => l.word p i (if l.wq.isEmpty then 0 else (Config.freeWord s.draws).toNat % 2 ^ 23)
    | none => 0)

/-- What a read from outside returns (R5). -/
def State.regRead (s : State) (r : ReadReg) : Word :=
  match r with
  | .table fw p t i w => s.tableWord fw p t i w
  | .queue p q off => ((s.part p).queue q).pageWord off
  | .command p off =>
    let x := s.part p
    if off < 0x38 then x.cw.get (off / 8) 0 else if off / 8 = 7 then goWord x.busy x.op.toNat x.status.toNat else 0
  | .control p off => s.controlWord p off
  | .faultRing p off => s.faultRingWord p off
  | .eventRing p off => s.eventRingWord p off
  | .mailbox b off => if b < 3 then s.mgmt.pageWord b off else 0
  | .discovery off => if off / 32 < 27 then (s.siteDisc (off / 32)).word (off / 8 % 4) else 0
  | .boot c i =>
    let x := s.core c
    (match i with
     | 0 => x.mbImg
     | 1 => wordOf [(0, x.mbOff.toNat)]
     | 2 => wordOf [(4, x.mbState.toNat)]
     | _ => 0)
  | .temperature site => wordOf [(0, s.temps.get site 0)]
  | .power => wordOf [(0, s.governor.power)]

/-- The partition whose host a read answers; none for a PF, the sideband or firmware. -/
def ReadReg.host : ReadReg → Option Nat
  | .table fw p _ _ _ => if fw then none else some p
  | .queue p _ _ => some p
  | .command p _ => some p
  | .control p _ => some p
  | .faultRing p _ => some p
  | .eventRing p _ => some p
  | _ => none

/-- A read from outside answered (R5). -/
def State.readReg (s : State) (r : ReadReg) : State :=
  let v := s.regRead r
  let t := { s with draws := s.draws + 1 }
  match r.host with
  | some p => t.modPart p (fun x => x.answer (toBytes v.toNat 8) false)
  | none => { t with mgmt := { t.mgmt with readBack := v } }

end Sys2Proof.Machine
end

