-- ==== Sys2Proof/Machine/Issue.lean ====
section
/-! DEFINITION. What a fetch finds: the next bundle of a core (R44, R60, R107, R120, R139, R422), the next work of an engine (R46, R294,
R312, R323) and of a launch queue (R30, R285, R289). Each answers the state with its turn set and the instruction to run, or none. -/

namespace Sys2Proof.Machine

/-- The state with its turn set, and the instruction that runs. -/
def State.go (s : State) (t : Turn) (i : Instr) : State × Option Instr := ({ s with turn := t }, some i)

/-- The turn of a core. -/
def State.coreTurn (s : State) (n : Nat) : Turn :=
  let x := (s.core n).ctx
  { Turn.zero with core := n, crew := x.crew, site := siteOf n, part := x.part, bidx := x.pc }

/-! ## Bundles -/

/-- A fault of a bundle as it is fetched. One that names no move, an ILLEGAL_BUNDLE or the POISON of a restore, of a parity error or of
instruction memory, leaves SLOT open (log 4). DESIGN CHOICE (log 19). -/
def State.fetchFault (s : State) (n code : Nat) (slot : Option Nat) (detail : Word) (more : Bool) : State :=
  let d := s.draw 8
  let t := match slot with
    | some _ => s
    | none => d.2
  t.stopIssue n (.fault { strandFault code (slot.getD d.1) (s.core n).ctx.pc detail 0 with more := more })

/-- Whether a deferred operation writes PIDX (R153, R184). -/
def Deferred.writesPidx (d : Deferred) : Bool :=
  d.fu == .sys && decide (1 ≤ d.opc.toNat) && decide (d.opc.toNat ≤ 3) && decide (fld d.ops.b 0 12 = 4)

/-- A CSR write to PIDX that acts in this clock frees the sequencers that it discards for the bundle of this clock (R184); the old
value still enters SYS.D in this clock (R154), after the results of operations issued earlier: no operation of SYS is faster. -/
def State.earlyPidx (s : State) (n : Nat) : State :=
  let c := s.core n
  match c.deferred.find? (fun d => decide (d.due ≤ c.age) && d.writesPidx) with
  | none => s
  | some d =>
    s.setCore n
      { c with
        ctx := (c.ctx.csrWrite 4 .write d.ops.a).nextSeq
        deferred := c.deferred.filter (fun y => y != d)
        inflight := c.inflight ++
          [{ fu := .sys, due := c.age, seq := c.ctx.seq + 1, writes := [(0, .s c.ctx.pidx)], raised := 0, enabled := 0, lowest := 0,
             bidx := d.bidx, slot := d.slot, macC := false }] }

/-- The bundle that issues next on a core: poison at the first bundle that would issue after a restore or on a parity error (R224,
R422), poison in instruction memory, the end of the overlay (R139), and the encoding (R107, R120). DETAIL of a bundle beyond the end
is open (log 4). DESIGN CHOICE (log 19). -/
def State.fetchBundle (s : State) (n : Nat) : State × Option Instr :=
  let c := s.core n
  let pc := c.ctx.pc.toNat
  match c.overlay with
  | none => (s.fetchFault n cILLEGAL_BUNDLE none (BitVec.ofNat 64 (fld (Config.freeWord s.draws) 0 16)) false, none)
  | some o =>
    if c.badRestore || c.parityBad then (s.fetchFault n cPOISON none 0 false, none)
    else if o.bad.contains pc then (s.fetchFault n cPOISON none (BitVec.ofNat 64 (32 * pc)) false, none)
    else if o.size ≤ pc then
      (s.fetchFault n cILLEGAL_BUNDLE none (BitVec.ofNat 64 (fld (Config.freeWord s.draws) 0 16)) false, none)
    else
      match decodeBundle (s.coreCls n == .vec) (o.code.get pc 0) with
      | .ok b => (s.earlyPidx n).go (s.coreTurn n) (.move b)
      | .error (.bundle d) => (s.fetchFault n cILLEGAL_BUNDLE none (BitVec.ofNat 64 d) false, none)
      | .error (.transport slot d more) => (s.fetchFault n cILLEGAL_TRANSPORT (some slot) (BitVec.ofNat 64 d) more, none)

/-- A clock in which a core does not issue but its long operations advance (R183): a pause, a hold or a halted strand. A held bundle
with stores of its own keeps a long store that completes back until it has ended or not: in one clock the long store comes last
(R219). -/
def State.idleClock (s : State) (n : Nat) : State :=
  let x := (s.core n).ctx.advanceLongs
  let t := s.modCore n (fun c => { c with ctx := x, busy := true })
  if (s.core n).hold.any Hold.stores then t else t.front (longStoreTask n x)

/-- A NOPW pause counted (R165). DEDUCED (log 60). -/
def State.pauseClock (s : State) (n : Nat) : State :=
  let k := (s.core n).ctx.nopw
  let t := if k ≤ 1 then s.front [.run (s.coreTurn n) .nopwPauseEnd] else s.modCtx n (fun x => { x with nopw := k - 1 })
  t.idleClock n

/-- The turn of an ALLOC held in issue: its ports A and B. -/
def State.allocTurn (s : State) (n : Nat) (a : AllocHold) : Turn :=
  { s.coreTurn n with slot := a.slot, ops := { Operands.zero with a := a.a, b := a.b } }

/-- An ALLOC's hold counted (R259). The allocator decides in a clock of its choice, the last one at the latest. -/
def State.allocClock (s : State) (n : Nat) (h : Hold) (a : AllocHold) : State :=
  let left := a.left - 1
  let t := s.modCore n (fun c => { c with hold := some { h with alloc := some { a with left := left } } })
  if a.res.isSome then t
  else
    let f := t.flip
    if f.1 ∨ left = 0 then f.2.front [.run (s.allocTurn n a) .alloc] else f.2

/-- A clock of a held bundle (R259, R368). A stop request or an ARITH trap abandons a wait; an ALLOC is finished first. In the clock
after the end of a wait no bundle issues. -/
def State.holdClock (s : State) (n : Nat) : State :=
  let c := s.core n
  match c.hold with
  | none => (s.modCore n (fun c => { c with mode := .run })).idleClock n
  | some h =>
    match h.alloc with
    | some a => (s.allocClock n h a).idleClock n
    | none =>
      match c.ctx.arith, c.stopReq with
      | some a, _ => s.takeArith n a
      | none, some w => (s.modCore n (fun c => { c with stopReq := none })).stopIssue n w
      | none, none => s.idleClock n

/-- A core in the issue phase of its clock. A long operation triggered in the last bundle before issue stops parks without an advance
(R183). DEDUCED (log 87). -/
def State.issue (s : State) (n : Nat) : State × Option Instr :=
  let c := s.core n
  match c.mode with
  | .run =>
    (match c.stopReq with
     | some w => ((s.modCore n (fun c => { c with stopReq := none })).stopIssue n w, none)
     | none => s.fetchBundle n)
  | .pause =>
    (match c.stopReq with
     | some w => ((s.modCore n (fun c => { c with stopReq := none })).stopIssue n w, none)
     | none => (s.pauseClock n, none))
  | .hold => (s.holdClock n, none)
  | .halted => (s.idleClock n, none)
  | .drain w => (s.modCtx n (fun x => x.parkLongs w.isTrap), none)
  | .save _ w => (s.modCtx n (fun x => x.parkLongs w.isTrap), none)
  | _ => (s, none)

/-! ## Walkers -/

/-- The next instruction of a walker. -/
def State.walkerNext (s : State) (e : Nat) : State × Option Instr :=
  let w := s.walker e
  match w.fetch with
  | .error r => (s.stopEntry e r, none)
  | .ok x =>
    match decodeWalker x with
    | .ok i => s.go (Turn.forEntry e (s.walkerEnt e)) i
    | .error k => (s.stopEntry e (walkerErr w k), none)

/-! ## Engines -/

/-- Whether an engine may run entries of a partition now (R28, R61, R66). -/
def State.engineServes (s : State) (e p : Nat) : Bool :=
  !(s.eng e).frozenParts.contains p && !(s.part p).suspended && !s.partCutting p &&
    (match s.slices.find (256 + e) with
     | some x => x.part == p && !x.cutting
     | none => true)

/-- Whether an engine may run an entry now: its partition's, unless its crew is switched out (R66). -/
def State.entryServed (s : State) (e : Nat) (q : QEnt) : Bool :=
  s.engineServes e q.part && (q.pkt.isSome || (s.crew q.crew).st != .out)

/-- Whether a site's engines run (R353, R423): in a ready site, and in a draining one until its drain is forced. -/
def State.siteRuns (s : State) (site : Nat) : Bool :=
  match (s.siteDisc site).st with
  | .ready => true
  | .draining => !s.forced.contains site
  | _ => false

/-- The command of a word on an engine of its class; none where the word is illegal there (R124). -/
def engineInstr (e : Nat) (w : Bits256) : Option Instr := if opcOf w / 32 = engClass e then decodeTile w else none

/-- A word run by an engine, or the fault of an illegal one. -/
def State.runWord (s : State) (e : Nat) (q : QEnt) : State × Option Instr :=
  match engineInstr e q.word with
  | some i => s.go (Turn.forEntry e q) i
  | none => (s.stopEntry e (EngErr.illegal q.word), none)

/-- The next step of the entry that an engine executes. -/
def State.engineStep (s : State) (e : Nat) (c : ExecEnt) : State × Option Instr :=
  let q := c.main.ent
  if c.done then s.go (Turn.forEntry e q) .tagCompletion
  else if c.window then s.go (Turn.forEntry e q) .windowCopyEnqueue
  else if sigwaitDue s c.act then s.go (Turn.forEntry e q) .sigwaitTimeout
  else
    match q.pkt with
    | some (p, k, seq) =>
      (match (((s.part p).queue k).pkts.find? (fun (x : LPkt) => x.seq == seq)).map (fun (x : LPkt) => decodePacket x.bits) with
       | some (some (.copyPacket b)) => s.go { Turn.forEntry e q with part := p, queue := k, item := seq } (.copyPacket b)
       | _ => (s, none))
    | none =>
      match c.sub with
      | some a => if opcOf a.ent.word / 32 = 0 then s.runWord e a.ent else s.runWord e q
      | none =>
        match engineInstr e q.word with
        | some (.wrun h b) => if c.main.prog = 0 then s.go (Turn.forEntry e q) (.wrun h b) else s.walkerNext e
        | _ => s.runWord e q

/-- An entry popped into execution. -/
def State.popEntry (s : State) (e : Nat) (q : QEnt) : State :=
  let x := s.eng e
  s.setEng e { x with queue := x.queue.filter (fun y => y.stamp != q.stamp), pops := x.pops + 1,
                      cur := some (ExecEnt.ofEnt q x.pops s.tick) }

/-- A stopped entry resumed (R46): a walker goes on with what it had when it stopped, but for its program store. -/
def State.resumeEntry (s : State) (e : Nat) (c : ExecEnt) : State :=
  let x := s.eng e
  let t := s.setEng e { x with cur := some { c with image := none }, saved := x.saved.filter (fun y => y.main.ent.stamp != c.main.ent.stamp) }
  match c.image with
  | some w => t.setWalker e { w with store := (s.walker e).store }
  | none => t

/-- A command of a core that holds no lease (R312). DEDUCED (log 40). -/
def noLease (e : Nat) : EngErr := EngErr.of cNO_LEASE (engNum e) 0

/-- Whether an entry is a legal matrix command, other than MLEASE, of a core that holds no lease: it never starts, and stopped and retried it
faults again (R65, R312). DEDUCED (log 40). -/
def State.lacksLease (s : State) (e : Nat) (q : QEnt) : Bool :=
  engClass e == 1 && (engineInstr e q.word).isSome && opcOf q.word != 0x20 && (s.arrayShare (arrayKey e q.part)).lhold != some q.core

/-- Whether an array pops an entry at its turn (R312): a word that is illegal there (R124), or a command of the holder. -/
def State.arrayStarts (s : State) (e : Nat) (mine : List QEnt) (q : QEnt) : Bool :=
  barrierOk mine false q && ((engineInstr e q.word).isNone || (s.arrayShare (arrayKey e q.part)).lhold == some q.core)

/-- What an array with nothing in execution does for a partition (R312): its entries oldest first. The oldest of the queue faults where it is
the command of a core without the lease; else the oldest that can start is popped, an MLEASE of the holder ending its lease; else the arbiter
of a free array grants. -/
def State.arrayPop (s : State) (e p : Nat) : State × Option Instr :=
  let mine := (s.eng e).queue.filter (fun q => q.part == p)
  match mine.head?.filter (fun q => s.lacksLease e q) with
  | some q => ((s.popEntry e q).stopEntry e (noLease e), none)
  | none =>
    match (coreHeads mine).find? (fun q => s.arrayStarts e mine q) with
    | some q =>
      (match engineInstr e q.word with
       | some i => if opcOf q.word = 0x20 then s.go (Turn.forEntry e q) i else (s.popEntry e q, none)
       | none => ((s.popEntry e q).stopEntry e (EngErr.illegal q.word), none))
    | none =>
      match s.leasePick e p with
      | some q =>
        if (s.arrayShare (arrayKey e p)).lhold.isSome then (s, none) else s.go { Turn.forEntry e q with part := p } .leaseGrant
      | none => (s, none)

/-- Whether a site's engines finish what they execute (R353, R423): those of a draining one run to an interruption point though its drain is
forced. -/
def State.siteSteps (s : State) (site : Nat) : Bool := (s.siteDisc site).st == .ready || (s.siteDisc site).st == .draining

/-- Whether an engine may run an entry now, its site included. -/
def State.entryRuns (s : State) (e : Nat) (q : QEnt) : Bool := s.siteRuns (engSite e) && s.entryServed e q

/-- Whether an engine executes an entry, or the CHAIN that fetched it, and goes on with it. -/
def State.executes (s : State) (e : Nat) (q : QEnt) : Bool :=
  s.siteSteps (engSite e) && (s.eng e).cur.any (fun c => c.main.ent.stamp == q.stamp)

/-- Whether an entry in execution is an XFEN that waits for an entry which cannot run before a cut or a drain is over: such an XFEN stops
with it, though it has no interruption point. DEDUCED (log 78). -/
def State.xfenStuck (s : State) (e : Nat) (c : ExecEnt) : Bool :=
  match decodeTile c.act.ent.word with
  | some (.xfen _ b) => !c.done && (s.xfenAwaits e b c.act.ent).any (fun p => !s.executes p.1 p.2 && !s.entryRuns p.1 p.2)
  | _ => false

/-- Whether an entry in execution leaves its engine now: that of an ended crew at an interruption point, or with its site gone. -/
def State.orphanLeaves (s : State) (e : Nat) (c : ExecEnt) : Bool :=
  s.orphan c.main.ent && (c.stoppable || !s.siteSteps (engSite e))

/-- Whether an entry in execution is put aside now: its partition is not served, and it is at an interruption point or an XFEN that cannot
end. -/
def State.putsAside (s : State) (e : Nat) (c : ExecEnt) : Bool :=
  !s.orphan c.main.ent && (c.stoppable || s.xfenStuck e c) && !s.entryRuns e c.main.ent

/-- An engine's next step: the entry in execution, which stops at its next interruption point where its partition is not served or its crew
has ended, a stopped one, or the next of its queue. -/
def State.engineNext (s : State) (e : Nat) : State × Option Instr :=
  let x := s.eng e
  match x.cur with
  | some c =>
    if s.orphanLeaves e c then (s.dropOrphan e, none)
    else if s.putsAside e c then (s.setAside e c, none)
    else if s.siteSteps (engSite e) then s.engineStep e c
    else (s, none)
  | none =>
    if !s.siteRuns (engSite e) then (s, none)
    else
      match x.saved.find? (fun c => s.entryServed e c.main.ent) with
      | some c =>
        if s.lacksLease e c.main.ent then ((s.resumeEntry e c).stopEntry e (noLease e), none) else (s.resumeEntry e c, none)
      | none =>
        match x.queue.find? (fun q => s.entryServed e q) with
        | none => (s, none)
        | some q => if engClass e = 1 then s.arrayPop e q.part else (s.popEntry e q, none)

/-! ## Launch queues -/

/-- Whether a packet has its barrier bit set (R289). -/
def LPkt.bar (k : LPkt) : Bool := k.bits.getLsbD 55

/-- The packet that may start next under R30: the first that has not started, when no earlier one holds it. before holds the earlier
packets that have not completed. -/
def nextPacket (before : List LPkt) : List LPkt → Option LPkt
  | [] => none
  | k :: ks =>
    if k.started.isSome then nextPacket (before ++ [k]) ks
    else if before.any LPkt.bar ∨ (k.bar ∧ before ≠ []) then none
    else some k

/-- A launch queue's next step: the start of a packet, the completion of a malformed one, or, in an ABORTED queue, of any but RESET. -/
def State.packetNext (s : State) (p q : Nat) : State × Option Instr :=
  let d := (s.part p).queue q
  let turn : LPkt → Turn := fun k => { Turn.zero with part := p, queue := q, item := k.seq }
  match d.st with
  | .running =>
    (match nextPacket [] d.pkts with
     | none => (s, none)
     | some k =>
       match decodePacket k.bits with
       | some i => s.go (turn k) i
       | none => (s.completePacket p q k.seq 4, none))
  | .aborted =>
    let isReset : LPkt → Bool := fun k => match decodePacket k.bits with
      | some (.reset _) => true
      | _ => false
    (match d.pkts.find? (fun k => k.started.isNone && !isReset k), d.pkts.find? (fun k => k.started.isNone) with
     | some k, _ => (s.completePacket p q k.seq 3, none)
     | none, some k =>
       (match decodePacket k.bits with
        | some (.reset r) => s.go (turn k) (.reset r)
        | _ => (s, none))
     | none, none => (s, none))
  | _ => (s, none)

end Sys2Proof.Machine
end

