-- ==== Sys2Proof/Machine/Sched.lean ====
section
/-! DEFINITION. The order of work (log 1): a clock of the 3.0 GHz arithmetic clock is a list of phases, each of which puts its tasks at the
front of the agenda; what the spec leaves to time is chosen by free values (log 4). -/

namespace Sys2Proof.Machine

/-! ## Acts of the hardware between instructions -/

/-- RCBs that end once their last buffer is gone (R261, R358). -/
def State.sweepRcbs (s : State) : State :=
  { s with rcbs := s.rcbs.filter (fun (r : Nat × Rcb) =>
      !(decide (2 ≤ r.2.state.toNat) && decide (2 ≤ r.2.level.toNat) && s.bufs.all (fun (b : Nat × Buf) => b.2.state == 0 || b.2.orcb != r.1))) }

/-- The time from now to a load's deadline, in clocks of the arithmetic clock (R227; chiplets of different clocks are compared in
time, log 1). DEDUCED (log 28). -/
def State.deadlineIn (s : State) (n : Nat) (l : GLoad) : Int :=
  ((l.deadline : Int) - (s.cycle (siteOf n) : Int)) * 30 / (s.clockOf (siteOf n) : Int)

/-- Whether one pending read is served before another at their MEM: by deadline, then by arrival, then by core number (R227).
DEDUCED (log 28). -/
def servedBefore (d a n d' a' n' : Int) : Bool :=
  decide (d < d') || (decide (d = d') && (decide (a < a') || (decide (a = a') && decide (n < n'))))

/-- Whether a read of granule g that arrived at clock a is first in its MEM's order: no pending read of the MEM comes before it, but for
one whose extent is held in recalibration (R227, R232). -/
def State.readIsFirst (s : State) (n : Nat) (l : GLoad) (g a : Nat) : Bool :=
  let m := extMem (s.extAt (g * 64))
  s.cores.all (fun p => p.2.ctx.loads.all (fun k => k.arrived.all (fun q =>
    !(servedBefore (s.deadlineIn p.1 k) q.2 p.1 (s.deadlineIn n l) a n &&
      extMem (s.extAt (q.1 * 64)) == m && (s.ext (s.extAt (q.1 * 64))).st != .recal))))

/-- The request for granule g of a load arrived at its MEM in this clock. DEDUCED (log 28). -/
def GLoad.arrive (l : GLoad) (g now : Nat) : GLoad := { l with arrived := l.arrived ++ [(g, now)] }

/-- A granule of a load: its request arrives at its MEM; then it is read in its turn, unless its extent is held in recalibration
(R227, R232, R423). -/
def State.readGranule (s : State) (n seq g : Nat) : State :=
  match (s.core n).ctx.loads.find? (fun l => l.seq == seq && l.todo.contains g) with
  | none => s
  | some l =>
    match l.arrived.find? (fun q => q.1 == g) with
    | none => s.modCtx n (fun x => { x with loads := x.loads.map (fun k => if k.seq = seq then k.arrive g s.now else k) })
    | some q =>
      if (s.ext (s.extAt (g * 64))).st != .recal && s.readIsFirst n l g q.2 then s.serveGranule n seq g else s

/-- The request of an ACQ or TACQ sent (R277). -/
def State.sendLatch (s : State) (n crew seq : Nat) : State :=
  match s.strand n crew with
  | none => s
  | some x =>
    match x.slotOps.find? (fun k => k.seq == seq) with
    | some k => s.latchArrive n crew x.part k
    | none => s

/-- An act of the hardware done. -/
def State.inner (s : State) (x : Inner) : State :=
  match x with
  | .granule n seq g => s.readGranule n seq g
  | .send n crew seq => s.sendLatch n crew seq
  | .coherence k =>
    (match s.pins.find k with
     | some p => { s with pins := s.pins.set k { p with copy := s.buf (k % 2 ^ 24) } }
     | none => s)
  | .reclaim bid => if s.reclaims.contains bid && s.reclaimReady bid then (s.reclaimDone bid).sweepRcbs else s
  | .writeBack line => if s.coded.contains line then s.writeBackLine line else s
  | .evict n line => s.modCore n (fun c => { c with rcache := c.rcache.filter (fun l => l.line != line) })
  | .recal k on =>
    let e := s.ext k
    if on && e.st == .hbm then s.setExt k { e with st := .recal }
    else if !on && e.st == .recal then s.setExt k { e with st := .hbm }
    else s
  | .endPacket p q seq =>
    (match ((s.part p).queue q).pkts.find? (fun k => k.seq == seq) with
     | some k =>
       (match k.ending with
        | some (c, sites) => if s.pathsEmpty sites then s.completePacket p q seq c else s
        | none => s)
     | none => s)
  | .ctl => s.stepCtl
  | .hostCmd p op => s.writeCgo p op.toNat
  | .mgmtCmd box op => s.writeMgo box op.toNat
  | .read r => s.readReg r
  | .heat site deg => s.heat site deg

/-! ## What a clock is made of -/

/-- The cores that have a strand or an overlay and a clock in this slot, in ascending number. -/
def State.clockedCores (s : State) : List Nat := (s.cores.map (fun p => p.1)).filter (fun n => s.clocked (siteOf n))

/-- The phases of a clock, in order: ticks, issue, shared scratch, results, what memory and engines do, operations of clock t + 1, system
registers of cores that hold no bundle, the ends of holds, the other system registers, stops, operations that act late in the clock,
and its end. DESIGN CHOICE (log 1). -/
def clockPhases : List Task := (List.range 12).map Task.phase

/-! ### Phase 0: ticks -/

/-- Partition and class of a place in a round of dispatch. -/
def roundAt (start i : Nat) : Nat × Nat := ((start + i / 4) % 64, i % 4)

/-- Whether the candidate of a partition and class can be dispatched, moved to another class, or faults (R347, R348, R350). -/
def State.dispatchable (s : State) (p cls : Nat) : Option Ready :=
  if (s.part p).suspended || s.partCutting p then none
  else
    match s.candidate p cls with
    | none => none
    | some r =>
      let n := s.node r.node
      match s.firstPref n with
      | none => some r
      | some f =>
        if f.cls.toNat ≠ cls then some r
        else if (s.placeSite p cls n).isSome && s.pinRoom ((s.placeSite p cls n).getD 0) ((s.inst n.rcb).htab.map (fun h => hBid h.2)) then some r
        else none

/-- A phase of dispatch: the dispatches left in its tick, the partition its round starts at, the next place of the round, and whether
the round has dispatched anything. -/
def dispatchPhase (left start i : Nat) (any : Bool) : Task := .phase (16 + (((left * 64 + start) * 257 + i) * 2 + b2n any))

/-- A step of the rounds of R348: the next candidate that can be placed is dispatched; a round in which nothing was ends them, and at
most 32 dispatches are made in a tick, after which the round goes on in the next. A candidate whose first class is another's moves
there and counts for nothing. DEDUCED (log 52). -/
def State.dispatchRound (s : State) (left start i : Nat) (any : Bool) : State :=
  if left = 0 then { s with tgsRound := some (start, i, any) }
  else
    match (List.range 256).find? (fun j => decide (i ≤ j) && (s.dispatchable (roundAt start j).1 (roundAt start j).2).isSome) with
    | some j =>
      (match s.dispatchable (roundAt start j).1 (roundAt start j).2 with
       | some r =>
         if (s.firstPref (s.node r.node)).any (fun f => f.cls.toNat != r.cls) then
           s.front [.run { Turn.zero with item := r.stamp } .nodeDispatch, dispatchPhase left start j any]
         else s.front [.run { Turn.zero with item := r.stamp } .nodeDispatch, dispatchPhase (left - 1) start (j + 1) true]
       | none => s)
    | none => if any then s.front [dispatchPhase left (s.tgsNext % 64) 0 false] else s

/-- The dispatches of a tick: the round that was cut short, or a new one. -/
def State.dispatchStart (s : State) : Task :=
  match s.tgsRound with
  | some r => dispatchPhase 32 (r.1 % 64) (r.2.1 % 257) r.2.2
  | none => dispatchPhase 32 (s.tgsNext % 64) 0 false

/-- Slices of the resources that more than one partition's masks name (R28): one begins where none stands and a partition has work, with the
one that holds the resource.
DESIGN CHOICE (log 10). -/
def State.newSlices (s : State) : State :=
  if s.parts.length < 2 then s
  else
    (List.range 640).foldl (fun (t : State) k =>
      let ps := t.resourceSharers k
      if ps.length < 2 then (if (t.slices.get k Slice.zero).cutting then t else { t with slices := t.slices.erase k })
      else if (t.slices.find k).isSome then t
      else
        match ps.find? (fun p => t.holds p k), ps.find? (fun p => t.hasWork p k) with
        | some p, _ => t.giveSlice k p
        | none, some p => t.giveSlice k p
        | none, none => t) s

/-- The resources whose slice is over. -/
def State.sliceEnds (s : State) : List Task :=
  (s.slices.filter (fun x => !x.2.cutting && (decide (x.2.ends ≤ s.now) || !s.hasWork x.2.part x.1))).map (fun x =>
    .run { Turn.zero with item := x.1 } .sliceEnd)

/-- The work of a tick: ageing, slices, dispatch and the power governor (R21, R28, R348, R349).
DESIGN CHOICE (log 10). -/
def State.tickPhase (s : State) : State :=
  if s.now % 30 ≠ 0 then s
  else
    let t := { s.newSlices with tgsRound := none }
    t.front (.run Turn.zero .ageing :: t.sliceEnds ++ [s.dispatchStart]
      ++ [.run Turn.zero .governorStep])

/-! ### Phases 2 and 3: shared scratch and results -/

/-- The sites whose shared scratch has requests or banks held. -/
def State.servePhase (s : State) : List Task :=
  ((List.range 16).filter (fun i => s.clocked i &&
    (s.ssm.any (fun r => r.site == i) || s.ssmHeld.any (fun k => k / 256 == i)))).map (fun i =>
      .run { Turn.zero with site := i } .sharedScratchServe)

/-- Work numbered by its operation, put in the order of issue. -/
def insertSeq (p : Nat × Task) : List (Nat × Task) → List (Nat × Task)
  | [] => [p]
  | q :: qs => if p.1 < q.1 then p :: q :: qs else q :: insertSeq p qs

/-- The result of a long load that is due on a core: its operation number and its task (R183, R234). -/
def longLoadTask (n crew item : Nat) (o : Option LongOp) : List (Nat × Task) :=
  match o with
  | some l =>
    if l.due && !l.parked && l.isLoad && !l.overdue then
      [(l.seq, .run { Turn.zero with core := n, crew := crew, item := item } .longOpComplete)]
    else []
  | none => []

/-- A long load after a clock in which it could complete: one still waiting for granules is overdue, and one whose granules have come
completes in the next clock (R234). -/
def LongOp.late (l : LongOp) : LongOp :=
  if l.isLoad && !l.parked && decide (l.need ≤ l.adv) then { l with overdue := l.group.isSome } else l

/-- The results that enter their windows on a core in this clock, in the order of issue (R145, R183). -/
def State.resultTasks (s : State) (n : Nat) : List Task :=
  let c := s.core n
  if c.frozen then []
  else
    let ops := (c.inflight.filter (fun f => decide (f.due ≤ c.age))).map (fun f =>
      ((f.seq, .run { Turn.zero with core := n, crew := c.ctx.crew, item := f.seq } .resultWrite) : Nat × Task))
    let long := longLoadTask n c.ctx.crew 1 c.ctx.vlsLong ++ longLoadTask n c.ctx.crew 2 c.ctx.vxuLong
    ((ops ++ long).foldl (fun l p => insertSeq p l) []).map (fun p => p.2)

/-- The results of all cores. -/
def State.resultPhase (s : State) : State :=
  let ns := s.clockedCores
  let t := s.front (ns.flatMap (fun n => s.resultTasks n))
  ns.foldl (fun (u : State) n => if (u.core n).frozen then u
    else u.modCtx n (fun x => { x with vlsLong := x.vlsLong.map LongOp.late })) t

/-! ### Phase 4: memory, engines and everything whose time is open -/

/-- A task with its place drawn among others. -/
def State.scatter (s : State) (ts : List Task) (t : Task) : List Task × State :=
  let d := s.draw (ts.length + 1)
  (ts.take d.1 ++ t :: ts.drop d.1, d.2)

/-- Of tasks, those that a free choice takes in this clock, in a free order (log 4). -/
def State.choose (s : State) : List Task → List Task × State
  | [] => ([], s)
  | t :: ts =>
    let r := s.choose ts
    let f := r.2.flip
    if f.1 then f.2.scatter r.1 t else (r.1, f.2)

/-- The events from outside that are due. -/
def inboxTasks (now : Nat) (l : List (Nat × InEvent)) : List Task :=
  (l.filter (fun e => decide (e.1 ≤ now))).map (fun e => match e.2 with
    | .instr i p fw => .run { Turn.zero with part := p, fw := fw } i
    | .hostCmd p op => .inner (.hostCmd p op)
    | .mgmtCmd box op => .inner (.mgmtCmd box op)
    | .read r => .inner (.read r)
    | .heat site deg => .inner (.heat site deg))

/-- Loads whose data has arrived land (R225, R244). -/
def State.landings (s : State) (n : Nat) : List Task :=
  let x := (s.core n).ctx
  (x.loads.filter (fun l => l.ready (s.cycle (siteOf n)))).map (fun l =>
    .run { Turn.zero with core := n, crew := x.crew, item := l.seq } (match l.dst with
      | .stream _ _ => .streamEntryLand
      | _ => .loadLanding))

/-- Whether a REL or XFENCE in flight waits for a line: it was issued after a store of the line (R229, R277). -/
def Ctx.drainsLine (x : Ctx) (l : WcLine) : Bool :=
  x.slotOps.any (fun k => (match k.wait with
    | .rel _ _ _ => true
    | .xfence _ _ _ => true
    | _ => false) && l.ids.any (fun i => decide (i < k.seq)))

/-- Whether a line of the write-combining buffer leaves it without being displaced: it has been idle for 1,024 clocks, a REL or XFENCE
waits for it, or its strand has halted or is cut (R66, R229). DEDUCED (log 29). -/
def State.lineLeaves (s : State) (n : Nat) (l : WcLine) : Bool :=
  let c := s.core n
  c.mode == .halted || c.mode == .stopped || decide (l.idle + 1024 ≤ s.cycle (siteOf n)) || c.ctx.drainsLine l

/-- The line that leaves the write-combining buffer of a core next: of a line that leaves, the oldest line of the same extent, so that
stores to one extent are made in issue order (R278); and the oldest line of all while more than 32 are held. DEDUCED (log 29). -/
def State.writeOuts (s : State) (n : Nat) : List Task :=
  let c := s.core n
  let ext : WcLine → Nat := fun l => s.extAt (l.line * 64)
  let next : Option Nat :=
    if 32 < c.wcb.length then some 0
    else (c.wcb.find? (fun l => s.lineLeaves n l)).map (fun l => c.wcb.findIdx (fun k => ext k == ext l))
  (next.map (fun i => .run { Turn.zero with core := n, crew := c.ctx.crew, item := i } .wcLineWriteout)).toList

/-- Parked stores: the first that its MEM would answer, or whose 1,000 ticks are over, is tried again; one refused for good or for 1.5 s
is discarded (R278, R279). -/
def State.replays (s : State) (n : Nat) : List Task :=
  let c := s.core n
  let turn : Nat → Turn := fun i => { Turn.zero with core := n, crew := c.ctx.crew, item := i }
  let old : WcOut → Bool := fun o => o.permanent || (match o.parked with
    | some p => decide (p.1 + 150000 ≤ s.tick)
    | none => false)
  let again : WcOut → Bool := fun o => s.storeAnswer o != .refused || (match o.parked with
    | some p => decide (p.2 + 1000 ≤ s.tick)
    | none => false)
  let i := c.replay.findIdx old
  let j := c.replay.findIdx again
  if i < c.replay.length then [.run (turn i) .unresolvedStoreDiscard]
  else if j < c.replay.length then [.run (turn j) .storeReplayRetry]
  else []

/-- Timeouts of the latch and signal operations of a strand on its core (R277, R375). -/
def State.slotTimeouts (s : State) (n : Nat) : List Task :=
  let x := (s.core n).ctx
  x.slotOps.filterMap (fun k => match k.wait with
    | .acq _ _ false d _ 0 => if d ≤ s.tick then some (.run { Turn.zero with core := n, crew := x.crew, item := k.seq } .acqTimeout) else none
    | .sigwt _ _ _ d => if d ≤ s.tick then some (.run { Turn.zero with core := n, crew := x.crew, item := k.seq } .sigwtTimeout) else none
    | _ => none)

/-- The started BARRIERs: turn, packet, start tick, and the handles copied at the start. -/
def State.barriers (s : State) : List (Turn × BarrierPkt × Nat × List Handle) :=
  s.parts.flatMap (fun (p : Nat × Part) => p.2.queues.flatMap (fun (q : Nat × LaunchQ) => q.2.pkts.filterMap (fun (k : LPkt) =>
    match k.started, decodePacket k.bits with
    | some t0, some (.barrier b) => some ({ Turn.zero with part := p.1, queue := q.1, item := k.seq }, b, t0, k.hs)
    | _, _ => none)))

/-- INVOKEs whose instances have ended and whose paths now read empty (R272). -/
def State.endingTasks (s : State) : List Task :=
  s.parts.flatMap (fun (p : Nat × Part) => p.2.queues.flatMap (fun (q : Nat × LaunchQ) =>
    (q.2.pkts.filter (fun k => k.ending.any (fun x => s.pathsEmpty x.2))).map (fun k => .inner (.endPacket p.1 q.1 k.seq))))

/-- Started BARRIERs whose ticks have passed (R291). -/
def State.barrierTasks (s : State) : List Task :=
  (s.barriers.filter (fun b => b.2.1.tout != 0 && decide (b.2.2.1 + b.2.1.tout.toNat ≤ s.tick))).map (fun b => .run b.1 .barrierTimeout)

/-- Whether a signal that a BARRIER names has been written (R291). -/
def State.namedWritten (s : State) (p : BarrierPkt) (hs : List Handle) : Bool :=
  (barrierUsed p).any (fun c =>
    let a := hAddr (hs.getD c.1 0) c.2.off.toNat
    s.written.any (fun x => decide (a ≤ x) && decide (x < a + 8)))

/-- The waits on signals evaluated after a write (R291, R305, R339, R375): every SIGWT, then, as the next tasks, the CHAIN and SIGWAIT
entries in execution and the started BARRIERs of which a named signal has been written. -/
def State.wake (s : State) : State :=
  let strands := s.cores.flatMap (fun (c : Nat × Core) => if c.2.mode = .idle then [] else c.2.ctx.slotOps.map (fun k => (c.1, c.2.ctx.crew, k.seq)))
  let t := strands.foldl (fun (u : State) p => u.sigEval p.1 p.2.1 p.2.2) { s with written := [] }
  t.front ((t.engines.filter (fun e => e.2.cur.any (fun c => c.main.checked && (opcOf c.act.ent.word == 0xA2 ||
        (opcOf c.main.ent.word == 5 && c.sub.isNone))))).map (fun e => .engine e.1)
    ++ (t.barriers.filter (fun b => s.namedWritten b.2.1 b.2.2.2)).map (fun b => .run b.1 (.barrier b.2.1)))

/-- Drains that have not completed after 100 ms are forced (R423). -/
def State.lateDrains (s : State) : List Task :=
  (s.drains.filter (fun d => (s.siteDisc d.1).st == .draining && !s.forced.contains d.1 && decide (d.2.since + 10000000 ≤ s.tick))).map
    (fun d => .run Turn.zero (.forcedDrain (BitVec.ofNat 5 d.1)))

/-- What happens in this clock without a choice. -/
def State.dueTasks (s : State) : List Task :=
  inboxTasks s.now s.inbox
    ++ s.clockedCores.flatMap (fun n => s.landings n ++ s.writeOuts n ++ s.slotTimeouts n)
    ++ (s.cores.map (fun p => p.1)).flatMap (fun n => s.replays n)
    ++ s.barrierTasks ++ s.endingTasks
    ++ ((s.crews.filter (fun c => s.crewLoaded c.1)).map (fun c => .run { Turn.zero with crew := c.1 } .strandStart))
    ++ ((s.engines.filter (fun e => decide (e.2.queue.length < 16) &&
        (!e.2.elastic.isEmpty || e.2.off.any (fun q => s.comesBack e.1 q)))).map (fun e =>
        .run { Turn.zero with engine := e.1 } .elasticBufferMove))
    ++ s.lateDrains
    ++ (if s.mgmt.mode = 2 ∧ s.mgmt.pauseEnd ≤ s.tick then [.run Turn.zero .activationReset] else [])

/-- The place of a written-out line that its MEM may answer next: of the lines that reach one extent only the oldest (R278, R280). -/
def State.ackIndex (s : State) (n : Nat) : Nat × State :=
  let outs := (s.core n).outs
  let d := s.draw outs.length
  (match outs[d.1]? with
   | some o => outs.findIdx (fun x => s.sameExtent o x)
   | none => 0, d.2)

/-- What a strand's own operations wait for: latch requests, landings, pairs. -/
def strandTasks (n : Nat) (x : Ctx) (out : Bool) : List Task :=
  let turn : Nat → Turn := fun i => { Turn.zero with core := n, crew := x.crew, item := i }
  x.slotOps.flatMap (fun k => match k.wait with
    | .acq _ _ _ _ false 0 => if out then [] else [.inner (.send n x.crew k.seq)]
    | .acq _ _ _ _ true 0 => []
    | .sigwt _ _ _ _ => if out then [] else [.run (turn k.seq) .latchFenceLanding]
    | _ => [.run (turn k.seq) .latchFenceLanding])
  ++ (if x.upd.entries.isEmpty then [] else [.run (turn 0) .pairAccept])

/-- What may happen on a core at a time that the spec leaves open. -/
def State.coreChoices (s : State) (n : Nat) : List Task :=
  let c := s.core n
  let x := c.ctx
  if c.mode = .idle then []
  else
    x.loads.flatMap (fun l => l.todo.map (fun g => .inner (.granule n l.seq g)))
      ++ (if x.stream.st = .running ∧ !s.underCut x.crew then [.run { Turn.zero with core := n, crew := x.crew } .streamGenerate] else [])
      ++ strandTasks n x false ++ c.rcache.map (fun l => .inner (.evict n l.line))

/-- One answer to a written-out line of each core. -/
def State.ackChoices (s : State) : List Nat → List Task × State
  | [] => ([], s)
  | n :: ns =>
    let r := s.ackChoices ns
    if (r.2.core n).outs.isEmpty then r
    else
      let d := r.2.ackIndex n
      (.run { Turn.zero with core := n, item := d.1 } .storeAck :: r.1, d.2)

/-- What may happen at the MEMs. DESIGN CHOICE (log 7). -/
def State.memChoices (s : State) : List Task :=
  (s.latches.filter (fun l => !l.2.wq.isEmpty)).map (fun l => .run { Turn.zero with item := l.1 } .latchGrant)
    ++ s.exts.flatMap (fun e => match e.2.st with
        | .migrating => [.run { Turn.zero with item := e.1 } .extentMigration]
        | .recal => [.inner (.recal e.1 false)]
        | .hbm => [.inner (.recal e.1 true)]
        | _ => [])
    ++ ((List.range 8).filter (fun m => decide (s.hbmFree m * 50 < hbmExtents))).map (fun m => .run { Turn.zero with item := m } .extentDemotion)
    ++ (s.pins.filter (fun p => p.2.copy != s.buf (p.1 % 2 ^ 24))).map (fun p => .inner (.coherence p.1))
    ++ s.reclaims.map (fun b => .inner (.reclaim b)) ++ s.coded.map (fun l => .inner (.writeBack l))

/-- What may happen at the hub: packets, retirements, switches, the ends of drains, calibrations and activations, and an instruction of the
control processor. -/
def State.hubChoices (s : State) : List Task :=
  s.parts.flatMap (fun (p : Nat × Part) => (p.2.queues.filter (fun q => !q.2.pkts.isEmpty)).map (fun q => .packet p.1 q.1))
    ++ (s.crews.filter (fun c => s.crewDone c.1)).map (fun c => .run { Turn.zero with crew := c.1 } .nodeRetire)
    ++ (s.parts.filter (fun p => p.2.cutting && s.cutDone p.1 wholeScope)).map (fun p =>
        .run { Turn.zero with part := p.1, item := wholeScope } .contextSwitch)
    ++ (s.slices.filter (fun x => x.2.cutting && s.cutDone x.2.part x.1)).map (fun x =>
        .run { Turn.zero with part := x.2.part, item := x.1 } .contextSwitch)
    ++ (s.saved.filter (fun g => s.gangMoves g)).map (fun g =>
        .run { Turn.zero with part := (s.crew g.crew).part, crew := g.crew, item := wholeScope } .contextSwitch)
    ++ (s.disc.filter (fun d => d.2.st == .draining && s.siteIdle d.1)).map (fun d => .run Turn.zero (.drainComplete (BitVec.ofNat 5 d.1)))
    ++ (s.disc.filter (fun d => d.2.st == .calibrating)).flatMap (fun d =>
        [.run Turn.zero (.calibrationDone (BitVec.ofNat 5 d.1) true), .run Turn.zero (.calibrationDone (BitVec.ofNat 5 d.1) false)])
    ++ (if s.mgmt.pending.isSome then [.run Turn.zero .activationReset] else [])
    ++ s.errored.map (fun n => .run Turn.zero (.forcedDrain (BitVec.ofNat 5 n)))
    ++ (if s.mgmt.mode = 0 ∧ s.mgmt.ctl.running then [.inner .ctl] else [])

/-- What may happen at the engines. DESIGN CHOICE (log 7). -/
def State.engineChoices (s : State) : List Task :=
  (s.engines.filter (fun e => e.2.cur.isSome || !e.2.queue.isEmpty || !e.2.saved.isEmpty)).map (fun e => .engine e.1)
    ++ (s.engines.filter (fun e => (e.2.cur.toList ++ e.2.saved).any (fun c => !c.pairs.isEmpty))).map (fun e =>
        .run { Turn.zero with engine := e.1 } .pairAccept)

/-- Phase 4: what is due, then what a free choice takes. DESIGN CHOICE (log 7). -/
def State.openPhase (s : State) : State :=
  let a := s.ackChoices (s.cores.map (fun p => p.1))
  let free := (s.cores.map (fun p => p.1)).flatMap (fun n => s.coreChoices n)
    ++ s.saved.flatMap (fun g => g.ctxs.flatMap (fun p => strandTasks p.1 p.2 true))
    ++ a.1 ++ s.memChoices ++ s.engineChoices ++ s.hubChoices
  let r := a.2.choose free
  { r.2 with inbox := s.inbox.filter (fun e => decide (s.now < e.1)) }.front (s.dueTasks ++ r.1)

/-! ### Phases 5, 6, 8 and 10: operations that act in a later clock, or late in their own -/

/-- The task of an operation that acts now. -/
def State.deferredTask (s : State) (n : Nat) (d : Deferred) : List Task :=
  match trigInstr { slot := d.slot, fu := d.fu, opc := d.opc } d.ops with
  | some i => [.run { s.coreTurn n with slot := d.slot, bidx := d.bidx, ops := d.ops, checked := true } i]
  | none => []

/-- FLADD and FLSET. -/
def Deferred.isFlagWrite (d : Deferred) : Bool := d.fu == .syn && (d.opc == 0x10 || d.opc == 0x11)

/-- FLADD with REM = 1, which orders no memory (R373). -/
def Deferred.isRemote (d : Deferred) : Bool := d.opc == 0x10 && bitAt d.ops.a.toNat 32

/-- Whether a store to shared scratch of core n issued before operation seq has not been served, or is still in the hands of a long
operation (R280). DEDUCED (log 59). -/
def State.flagWaits (s : State) (n seq : Nat) : Bool :=
  let x := (s.core n).ctx
  let long : Option LongOp → Bool := fun o => longStoreBefore o seq && o.any (fun l => !l.shared.isEmpty)
  s.ssmStoresBefore n x.crew seq || long x.vlsLong || long x.vxuLong

/-- The operations of a core of a kind that are due. A local flag write waits for the core's earlier stores to shared scratch (R280).
DEDUCED (log 59). -/
def State.dueOps (s : State) (n : Nat) (ok : Deferred → Bool) : List Deferred :=
  let c := s.core n
  if c.frozen then []
  else c.deferred.filter (fun d => decide (d.due ≤ c.age) && ok d && !(d.isFlagWrite && !d.isRemote && s.flagWaits n (d.born + 1)))

/-- The operations of a kind, which may depend on the core, taken from every core and put on the agenda, in ascending core number. -/
def State.takeOpsOn (s : State) (ok : Nat → Deferred → Bool) : List Task × State :=
  let ns := s.clockedCores
  (ns.flatMap (fun n => (s.dueOps n (ok n)).flatMap (fun d => s.deferredTask n d)),
    ns.foldl (fun (t : State) n =>
      if (s.dueOps n (ok n)).isEmpty then t
      else t.modCore n (fun c => { c with deferred := c.deferred.filter (fun d => !(s.dueOps n (ok n)).contains d) })) s)

/-- The operations of a kind taken from every core. -/
def State.takeOps (s : State) (ok : Deferred → Bool) : List Task × State := s.takeOpsOn (fun _ => ok)

/-- A remote increment that arrives in this clock, if a free choice takes one (R373): of one core's to one crew the oldest.
DEDUCED (log 59). -/
def State.remoteArrival (s : State) : List Task × State :=
  if s.remotes.isEmpty then ([], s)
  else
    let f := s.flip
    if f.1 then
      let d := f.2.draw s.remotes.length
      let i := match s.remotes[d.1]? with
        | some r => s.remotes.findIdx (fun x => x.fromCore == r.fromCore && x.crew == r.crew)
        | none => 0
      ([.run { Turn.zero with item := i } .remoteFladdArrival], d.2)
    else ([], f.2)

/-- Phase 5: flags are written in ascending core number, then arrivals, then reads of flags, FFR and DTRD (R158, R371-R373). -/
def State.nextClockPhase (s : State) : State :=
  let w := s.takeOps (fun d => !d.late && d.isFlagWrite)
  let a := w.2.remoteArrival
  let r := a.2.takeOps (fun d => !d.late && !d.isFlagWrite && !(d.fu == .sys && decide (d.opc.toNat ≤ 3)))
  r.2.front (w.1 ++ a.1 ++ r.1)

/-- A CSR operation. -/
def Deferred.isCsr (d : Deferred) : Bool := !d.late && d.fu == .sys && decide (d.opc.toNat ≤ 3)

/-- The number of the system register that a CSR operation names (R153). -/
def Deferred.csrNum (d : Deferred) : Nat := if d.opc = 0 then fld d.ops.a 0 12 else fld d.ops.b 0 12

/-- Phase 6: system registers (R154). On a core that holds a bundle only TAGS, which its wait may compare after every update of the
clock (R368): the end of the wait comes before a CSR operation on any other register. -/
def State.csrPhase (s : State) : State :=
  let r := s.takeOpsOn (fun n d => d.isCsr && ((s.core n).mode != .hold || d.csrNum == 0x055))
  r.2.front r.1

/-- Phase 8: the CSR operations that the end of a hold comes before (R154, R168). -/
def State.csrLatePhase (s : State) : State :=
  let r := s.takeOps Deferred.isCsr
  r.2.front r.1

/-- Phase 10: the operations of this clock that act at its end. -/
def State.latePhase (s : State) : State :=
  let r := s.takeOps (fun d => d.late)
  r.2.front r.1

/-! ### Phases 7 and 9: holds and stops -/

/-- The sill slot of the first load that a drain waits for. DEDUCED (log 20). -/
def drainSlot : List GLoad → Nat
  | [] => 0
  | l :: ls => match l.dst with
    | .scalar k _ => k
    | .vector k => 32 + k
    | _ => drainSlot ls

/-- A core that drains (R58, R61, R66): once its fixed-latency operations and its loads are done, or, for MEM_TIMEOUT's own drain, the
first alone, its stop goes on. After 200,000 ticks MEM_TIMEOUT ends the drain (R226). DEDUCED (log 20). -/
def State.drainClock (s : State) (n : Nat) (w : Stop) : State :=
  let c := s.core n
  let waits := c.ctx.loads.any GLoad.awaited
  let ownTimeout : Bool := match w with
    | .fault f => f.code == cMEM_TIMEOUT
    | _ => false
  let start := (c.freeze.map (fun f => f.1)).getD s.tick
  if s.fixedDrained n && (!waits || ownTimeout) then s.afterDrain n w
  else if start + 200000 ≤ s.tick ∧ s.fixedDrained n then
    match w with
    | .fault _ => s.afterDrain n w
    | _ => s.front [.run { s.coreTurn n with item := drainSlot c.ctx.loads } .memTimeout]
  else s.modCore n (fun d => { d with freeze := some (start, drainSlot c.ctx.loads) })

/-- A clock of a save or restore of the trap slot (R58 step 5, R59 step 3). -/
def State.saveClock (s : State) (n k : Nat) (w : Stop) : State :=
  let t := s.modCore n (fun c => { c with mode := .save (k - 1) w })
  if 1 < k then t
  else
    match w with
    | .trap _ => t.front [.run (t.coreTurn n) .trapEntry]
    | _ => t.finishTret n

/-- What ends the hold of a core in this clock (R259, R368): the end of an ALLOC's hold, or a wait whose condition holds or whose timeout
has passed. -/
def State.holdEnd (s : State) (n : Nat) (h : Hold) : List Task :=
  match h.alloc with
  | some a => if a.left = 0 ∧ h.born < s.now then [.run (s.coreTurn n) .allocHoldEnd] else []
  | none =>
    match s.openWait n with
    | none => []
    | some (_, w) =>
      if (s.waitCond n w).1 then [.run (s.coreTurn n) .waitEnd]
      else if s.waitExpired w then [.run (s.coreTurn n) .waitTimeout]
      else []

/-- A held bundle in its clock: its end, and the long stores that waited for it (R219). -/
def State.waitClock (s : State) (n : Nat) : State :=
  match (s.core n).mode, (s.core n).hold with
  | .hold, some h =>
    let s := (h.wait.map (fun w => s.applyWait w)).getD s
    s.front (s.holdEnd n h ++ (if h.stores then longStoreTask n (s.core n).ctx else []))
  | _, _ => s

/-- Whether a strand of the same crew on a lower core, whose fault struck in the same clock, still drains: its record comes first
(R61). -/
def State.lowerFault (s : State) (n : Nat) : Bool :=
  let c := s.core n
  (s.crew c.ctx.crew).cores.any (fun m =>
    let d := s.core m
    decide (m < n) && d.ctx.crew == c.ctx.crew && d.faultAt == c.faultAt && (match d.mode with
      | .drain (.fault _) => true
      | _ => false))

/-- A core in the phase of stops. -/
def State.stopClock (s : State) (n : Nat) : State :=
  match (s.core n).mode with
  | .drain (.fault f) => if s.lowerFault n then s else s.drainClock n (.fault f)
  | .drain w => s.drainClock n w
  | .save k w => s.saveClock n k w
  | _ => s

/-! ### Phase 11: the end of a clock -/

/-- A core at the end of its clock: its count of unfrozen clocks, its overlay loader, and the marks of the clock. -/
def Core.endClock (c : Core) : Core :=
  { c with age := if c.frozen then c.age else c.age + 1, loadLeft := c.loadLeft - 8, frozen := false, busy := false, movedC := [] }

/-- The end of a clock (R3, R152): the clocks that the governor has chosen run from the next one on (R22). -/
def State.endClock (s : State) : State :=
  let t := s.clockedCores.foldl (fun (u : State) n => u.modCore n Core.endClock) s
  { t with
    governor := { t.governor with run := t.governor.set }
    cycles := ((List.range 27).filter (fun i => s.clocked i)).foldl (fun (m : NMap Nat) i => m.set i (m.get i 0 + 1)) t.cycles
    now := s.now + 1 }

/-! ## The agenda -/

/-- A phase put to work. DESIGN CHOICE (log 1). -/
def State.phase (s : State) (k : Nat) : State :=
  match k with
  | 0 => s.tickPhase
  | 1 => s.front (s.clockedCores.map Task.issue)
  | 2 => s.front s.servePhase
  | 3 => s.resultPhase
  | 4 => s.openPhase
  | 5 => s.nextClockPhase
  | 6 => s.csrPhase
  | 7 => s.clockedCores.foldr (fun n (t : State) => t.waitClock n) s
  | 8 => s.csrLatePhase
  | 9 => s.clockedCores.foldr (fun n (t : State) => t.stopClock n) s
  | 10 => s.latePhase
  | 11 => s.endClock
  | _ =>
    let c := k - 16
    s.dispatchRound (c / 2 / 257 / 64) (c / 2 / 257 % 64) (c / 2 % 257) (c % 2 == 1)

/-- A task taken from the agenda: the state in which its instruction runs, and that instruction, or the state after a task that runs
none. -/
def State.plan (s : State) (t : Task) : State × Option Instr :=
  match t with
  | .issue n => s.issue n
  | .run turn i => s.go turn i
  | .engine e => s.engineNext e
  | .walker e => s.walkerNext e
  | .packet p q => s.packetNext p q
  | .phase k => (s.phase k, none)
  | .inner x => (s.inner x, none)

/-- What the next step does: the evaluation of waits after a write, else the head of the agenda, or, when the agenda is empty, the phases of the next clock.
DESIGN CHOICE (log 1). DESIGN CHOICE (log 58). -/
def State.next (s : State) : State × Option Instr :=
  match s.written, s.agenda with
  | _ :: _, _ => (s.wake, none)
  | [], [] => ({ s with agenda := clockPhases }, none)
  | [], t :: ts => ({ s with agenda := ts }).plan t

end Sys2Proof.Machine
end

