-- ==== Sys2Proof/Machine/Step.lean ====
section
/-! DEFINITION. One step of the package, and how a word is placed where the next step fetches it. -/

namespace Sys2Proof.Machine

/-- One step: the head of the agenda is taken; an instruction that it names runs. After R424 has shut the package down nothing runs. -/
def step (s : State) : Host.Outcome State Fault Refusal :=
  if s.hostLinkDown then .fault .packageOff
  else
    match s.next with
    | (t, some i) => exec i t
    | (t, none) => .next t

/-- A walker with a word at its program counter, free to run it. DESIGN CHOICE (log 34). -/
def Walker.withWord (w : Walker) (x : BitVec 32) : Walker :=
  let pc := if w.pc ≤ 4095 then w.pc else 0
  { w with store := w.store.set pc x, pc := pc, status := 1, maxi := max w.maxi (w.count + 1) }

/-- An overlay of one bundle (DESIGN CHOICE, log 34). -/
def oneBundle (x : Bits256) : Overlay :=
  { part := 0, slot := 0, prog := 0, image := 0, sgen := 0, size := 1, code := [(0, x)], consts := [], vshape := 0, vconf := 0, trap := 0,
    entry := 0, last := 0, bad := [] }

/-- The state with an instruction of a width stored where step fetches next (DESIGN CHOICE, log 34): a walker word at the program counter of walker 0
of site 5, a bundle in the instruction memory of core 0, a launch packet at the head of queue 0 of partition 0. -/
def State.withFetchWord (s : State) (nbits w : Nat) : State :=
  if nbits = 32 then
    { s with written := [], walkers := s.walkers.set 276 ((s.walker 276).withWord (BitVec.ofNat 32 w)), agenda := .walker 276 :: s.agenda,
             hostLinkDown := false }
  else if nbits = 256 then
    { s with written := [], cores := s.cores.set 0 { Core.zero with mode := .run, overlays := [oneBundle (BitVec.ofNat 256 w)], running := some 0 },
             agenda := .issue 0 :: s.agenda, hostLinkDown := false }
  else
    let q : LaunchQ := { LaunchQ.zero with v := true }
    { s.modPart 0 (fun p => { p with queues := p.queues.set 0 (q.accept (BitVec.ofNat 512 w)) }) with
      written := [], agenda := .packet 0 0 :: s.agenda, hostLinkDown := false }

end Sys2Proof.Machine
end

