-- ==== Sys2Proof/Laws/Memory.lean ====
section
/-! SUPPORT. Laws of finite maps and of the byte memory: a read after a write, and that every memory operation keeps the canonical
form. -/

namespace Sys2Proof.Machine

/-- Keys strictly rising from a bound. -/
def NMap.sortedFrom {α : Type} (lo : Nat) : NMap α → Prop
  | [] => True
  | (k, _) :: r => lo ≤ k ∧ NMap.sortedFrom (k + 1) r

theorem NMap.sortedFrom_mono {α : Type} {lo lo' : Nat} (h : lo' ≤ lo) {m : NMap α} (hm : NMap.sortedFrom lo m) :
    NMap.sortedFrom lo' m := by
  cases m with
  | nil => trivial
  | cons p r => exact ⟨Nat.le_trans h hm.1, hm.2⟩

theorem NMap.get_below {α : Type} {lo k : Nat} {d : α} {m : NMap α} (hm : NMap.sortedFrom lo m) (h : k < lo) :
    NMap.get m k d = d := by
  cases m with
  | nil => rfl
  | cons p r =>
    have h1 := hm.1
    have h2 : p.1 ≠ k := by omega
    have h3 : k < p.1 := by omega
    simp [NMap.get, h2, h3]

/-- A key set reads back its value. -/
theorem NMap.get_set_self {α : Type} (m : NMap α) (k : Nat) (v d : α) : (m.set k v).get k d = v := by
  induction m with
  | nil => simp [NMap.set, NMap.get]
  | cons p r ih =>
    unfold NMap.set
    by_cases h1 : p.1 = k
    · simp [h1, NMap.get]
    · by_cases h2 : k < p.1
      · simp [h1, h2, NMap.get]
      · simp [h1, h2, NMap.get, ih]

/-- Setting a key leaves every other key. -/
theorem NMap.get_set_ne {α : Type} (m : NMap α) {k j : Nat} (v d : α) (h : j ≠ k) : (m.set k v).get j d = m.get j d := by
  induction m with
  | nil => simp [NMap.set, NMap.get, Ne.symm h]
  | cons p r ih =>
    unfold NMap.set
    by_cases h1 : p.1 = k
    · subst h1
      simp [NMap.get, Ne.symm h]
    · by_cases h2 : k < p.1
      · simp only [h1, h2, if_true, if_false, NMap.get, Ne.symm h]
        by_cases h3 : j < k
        · have h4 : p.1 ≠ j := by omega
          have h5 : j < p.1 := by omega
          simp [h3, h4, h5]
        · simp [h3]
      · simp only [h1, h2, if_false, NMap.get, ih]

theorem Memory.wfFrom_mono {lo lo' : Nat} (h : lo' ≤ lo) {m : List Host.Cell} (hm : Memory.wfFrom lo m = true) :
    Memory.wfFrom lo' m = true := by
  cases m with
  | nil => rfl
  | cons p r =>
    simp only [Memory.wfFrom, Bool.and_eq_true, decide_eq_true_eq] at hm ⊢
    exact ⟨⟨Nat.le_trans h hm.1.1, hm.1.2⟩, hm.2⟩

theorem Memory.wfFrom_sorted {lo : Nat} {m : List Host.Cell} (hm : Memory.wfFrom lo m = true) : NMap.sortedFrom lo m := by
  induction m generalizing lo with
  | nil => trivial
  | cons p r ih =>
    simp only [Memory.wfFrom, Bool.and_eq_true, decide_eq_true_eq] at hm
    exact ⟨hm.1.1, ih hm.2⟩

theorem Memory.wfFrom_set {lo a : Nat} {b : BitVec 8} (hb : b ≠ unlistedByte) (ha : lo ≤ a) {m : List Host.Cell}
    (hm : Memory.wfFrom lo m = true) : Memory.wfFrom lo (NMap.set m a b) = true := by
  induction m generalizing lo with
  | nil => simp [NMap.set, Memory.wfFrom, ha, hb]
  | cons p r ih =>
    simp only [Memory.wfFrom, Bool.and_eq_true, decide_eq_true_eq] at hm
    unfold NMap.set
    by_cases h1 : p.1 = a
    · subst h1
      simp [Memory.wfFrom, hb, hm.1.1, hm.2]
    · by_cases h2 : a < p.1
      · have h3 : a + 1 ≤ p.1 := h2
        simp [h1, h2, h3, Memory.wfFrom, hb, ha, hm.1.2, hm.2]
      · have h3 : p.1 + 1 ≤ a := by omega
        simp [h1, h2, Memory.wfFrom, hm.1.1, hm.1.2, ih h3 hm.2]

theorem Memory.wfFrom_erase {lo a : Nat} {m : List Host.Cell} (hm : Memory.wfFrom lo m = true) :
    Memory.wfFrom lo (NMap.erase m a) = true := by
  induction m generalizing lo with
  | nil => rfl
  | cons p r ih =>
    simp only [Memory.wfFrom, Bool.and_eq_true, decide_eq_true_eq] at hm
    unfold NMap.erase
    by_cases h1 : p.1 = a
    · simp only [h1, if_true]
      exact Memory.wfFrom_mono (by omega) hm.2
    · by_cases h2 : a < p.1
      · simp [h1, h2, Memory.wfFrom, hm.1.1, hm.1.2, hm.2]
      · simp [h1, h2, Memory.wfFrom, hm.1.1, hm.1.2, ih hm.2]

theorem Memory.wfFrom_filter {lo : Nat} (f : Host.Cell → Bool) {m : List Host.Cell} (hm : Memory.wfFrom lo m = true) :
    Memory.wfFrom lo (m.filter f) = true := by
  induction m generalizing lo with
  | nil => rfl
  | cons p r ih =>
    simp only [Memory.wfFrom, Bool.and_eq_true, decide_eq_true_eq] at hm
    by_cases h : f p = true
    · simp [h, Memory.wfFrom, hm.1.1, hm.1.2, ih hm.2]
    · simp only [h, List.filter_cons, Bool.false_eq_true, if_false]
      exact Memory.wfFrom_mono (by omega) (ih hm.2)

/-- Writing a byte keeps the canonical form. -/
theorem Memory.wf_write {m : List Host.Cell} (a : Nat) (b : BitVec 8) (hm : Memory.wf m = true) :
    Memory.wf (Memory.write m a b) = true := by
  unfold Memory.write
  split
  · exact Memory.wfFrom_erase hm
  · next h => exact Memory.wfFrom_set h (Nat.zero_le a) hm

/-- Writing cells keeps the canonical form. -/
theorem Memory.wf_writeCells {m : List Host.Cell} (cs : List Host.Cell) (hm : Memory.wf m = true) :
    Memory.wf (Memory.writeCells m cs) = true := by
  induction cs generalizing m with
  | nil => exact hm
  | cons c cs ih => exact ih (Memory.wf_write c.1 c.2 hm)

/-- Writing bytes keeps the canonical form. -/
theorem Memory.wf_writeBytes {m : List Host.Cell} (a : Nat) (bs : List (BitVec 8)) (hm : Memory.wf m = true) :
    Memory.wf (Memory.writeBytes m a bs) = true := Memory.wf_writeCells _ hm

/-- Clearing a range keeps the canonical form. -/
theorem Memory.wf_clear {m : List Host.Cell} (lo hi : Nat) (hm : Memory.wf m = true) : Memory.wf (Memory.clear m lo hi) = true :=
  Memory.wfFrom_filter _ hm

theorem NMap.get_erase_ne {α : Type} (m : NMap α) {k j : Nat} (d : α) (h : j ≠ k)
    (hs : NMap.sortedFrom 0 m) : (m.erase k).get j d = m.get j d := by
  have key : ∀ lo, NMap.sortedFrom lo m → (m.erase k).get j d = m.get j d := by
    clear hs
    induction m with
    | nil => intro lo _; rfl
    | cons p r ih =>
      intro lo hs
      unfold NMap.erase
      by_cases h1 : p.1 = k
      · simp only [h1, if_true, NMap.get, Ne.symm h]
        by_cases h2 : j < k
        · simp only [h2, if_true, if_false]
          exact NMap.get_below hs.2 (by omega)
        · simp [h2]
      · by_cases h2 : k < p.1
        · simp [h1, h2, NMap.get]
        · simp only [h1, h2, if_false, NMap.get, ih _ hs.2]
  exact key 0 hs

/-- A byte written reads back. -/
theorem Memory.read_write_self {m : List Host.Cell} (a : Nat) (b : BitVec 8) (hm : Memory.wf m = true) :
    Memory.read (Memory.write m a b) a = b := by
  unfold Memory.write Memory.read
  split
  · next h =>
    have key : ∀ lo, Memory.wfFrom lo m = true → NMap.get (NMap.erase m a) a unlistedByte = unlistedByte := by
      clear hm
      induction m with
      | nil => intro _ _; rfl
      | cons p r ih =>
        intro lo hm
        simp only [Memory.wfFrom, Bool.and_eq_true, decide_eq_true_eq] at hm
        unfold NMap.erase
        by_cases h1 : p.1 = a
        · simp only [h1, if_true]
          exact NMap.get_below (Memory.wfFrom_sorted hm.2) (by omega)
        · by_cases h2 : a < p.1
          · simp [h1, h2, NMap.get]
          · simp [h1, h2, NMap.get, ih _ hm.2]
    rw [key 0 hm, h]
  · exact NMap.get_set_self _ _ _ _

/-- Writing a byte leaves every other byte. -/
theorem Memory.read_write_ne {m : List Host.Cell} {a c : Nat} (b : BitVec 8) (h : c ≠ a) (hm : Memory.wf m = true) :
    Memory.read (Memory.write m a b) c = Memory.read m c := by
  unfold Memory.write Memory.read
  split
  · exact NMap.get_erase_ne m _ h (Memory.wfFrom_sorted hm)
  · exact NMap.get_set_ne m _ _ h

/-- Writing cells leaves every byte whose address no cell has. -/
theorem Memory.read_writeCells_ne {m : List Host.Cell} {c : Nat} (cs : List Host.Cell) (h : ∀ p ∈ cs, p.1 ≠ c)
    (hm : Memory.wf m = true) : Memory.read (Memory.writeCells m cs) c = Memory.read m c := by
  induction cs generalizing m with
  | nil => rfl
  | cons p cs ih =>
    simp only [Memory.writeCells]
    rw [ih (fun q hq => h q (List.mem_cons_of_mem _ hq)) (Memory.wf_write _ _ hm)]
    exact Memory.read_write_ne _ (Ne.symm (h p List.mem_cons_self)) hm

end Sys2Proof.Machine
end

