-- ==== Sys2Proof/Laws/State.lean ====
section
/-! SUPPORT. What each named update of the state leaves and what it sets: one lemma per field and update. -/

namespace Sys2Proof.Machine

@[simp] theorem State.setCore_agenda (s : State) (n : Nat) (c : Core) : (s.setCore n c).agenda = s.agenda := rfl
@[simp] theorem State.setCore_turn (s : State) (n : Nat) (c : Core) : (s.setCore n c).turn = s.turn := rfl
@[simp] theorem State.setCore_now (s : State) (n : Nat) (c : Core) : (s.setCore n c).now = s.now := rfl
@[simp] theorem State.setCore_draws (s : State) (n : Nat) (c : Core) : (s.setCore n c).draws = s.draws := rfl
@[simp] theorem State.setCore_inbox (s : State) (n : Nat) (c : Core) : (s.setCore n c).inbox = s.inbox := rfl
@[simp] theorem State.setCore_population (s : State) (n : Nat) (c : Core) : (s.setCore n c).population = s.population := rfl
@[simp] theorem State.setCore_cycles (s : State) (n : Nat) (c : Core) : (s.setCore n c).cycles = s.cycles := rfl
@[simp] theorem State.setCore_mem (s : State) (n : Nat) (c : Core) : (s.setCore n c).mem = s.mem := rfl
@[simp] theorem State.setCore_poison (s : State) (n : Nat) (c : Core) : (s.setCore n c).poison = s.poison := rfl
@[simp] theorem State.setCore_coded (s : State) (n : Nat) (c : Core) : (s.setCore n c).coded = s.coded := rfl
@[simp] theorem State.setCore_bufs (s : State) (n : Nat) (c : Core) : (s.setCore n c).bufs = s.bufs := rfl
@[simp] theorem State.setCore_pins (s : State) (n : Nat) (c : Core) : (s.setCore n c).pins = s.pins := rfl
@[simp] theorem State.setCore_freedBids (s : State) (n : Nat) (c : Core) : (s.setCore n c).freedBids = s.freedBids := rfl
@[simp] theorem State.setCore_extUsed (s : State) (n : Nat) (c : Core) : (s.setCore n c).extUsed = s.extUsed := rfl
@[simp] theorem State.setCore_exts (s : State) (n : Nat) (c : Core) : (s.setCore n c).exts = s.exts := rfl
@[simp] theorem State.setCore_tier2 (s : State) (n : Nat) (c : Core) : (s.setCore n c).tier2 = s.tier2 := rfl
@[simp] theorem State.setCore_ranges (s : State) (n : Nat) (c : Core) : (s.setCore n c).ranges = s.ranges := rfl
@[simp] theorem State.setCore_reclaims (s : State) (n : Nat) (c : Core) : (s.setCore n c).reclaims = s.reclaims := rfl
@[simp] theorem State.setCore_latches (s : State) (n : Nat) (c : Core) : (s.setCore n c).latches = s.latches := rfl
@[simp] theorem State.setCore_regions (s : State) (n : Nat) (c : Core) : (s.setCore n c).regions = s.regions := rfl
@[simp] theorem State.setCore_bins (s : State) (n : Nat) (c : Core) : (s.setCore n c).bins = s.bins := rfl
@[simp] theorem State.setCore_engines (s : State) (n : Nat) (c : Core) : (s.setCore n c).engines = s.engines := rfl
@[simp] theorem State.setCore_arrays (s : State) (n : Nat) (c : Core) : (s.setCore n c).arrays = s.arrays := rfl
@[simp] theorem State.setCore_walkers (s : State) (n : Nat) (c : Core) : (s.setCore n c).walkers = s.walkers := rfl
@[simp] theorem State.setCore_ssm (s : State) (n : Nat) (c : Core) : (s.setCore n c).ssm = s.ssm := rfl
@[simp] theorem State.setCore_ssmGroups (s : State) (n : Nat) (c : Core) : (s.setCore n c).ssmGroups = s.ssmGroups := rfl
@[simp] theorem State.setCore_ssmHeld (s : State) (n : Nat) (c : Core) : (s.setCore n c).ssmHeld = s.ssmHeld := rfl
@[simp] theorem State.setCore_flags (s : State) (n : Nat) (c : Core) : (s.setCore n c).flags = s.flags := rfl
@[simp] theorem State.setCore_prc (s : State) (n : Nat) (c : Core) : (s.setCore n c).prc = s.prc := rfl
@[simp] theorem State.setCore_remotes (s : State) (n : Nat) (c : Core) : (s.setCore n c).remotes = s.remotes := rfl
@[simp] theorem State.setCore_diagShared (s : State) (n : Nat) (c : Core) : (s.setCore n c).diagShared = s.diagShared := rfl
@[simp] theorem State.setCore_rcbs (s : State) (n : Nat) (c : Core) : (s.setCore n c).rcbs = s.rcbs := rfl
@[simp] theorem State.setCore_rings (s : State) (n : Nat) (c : Core) : (s.setCore n c).rings = s.rings := rfl
@[simp] theorem State.setCore_nodes (s : State) (n : Nat) (c : Core) : (s.setCore n c).nodes = s.nodes := rfl
@[simp] theorem State.setCore_ready (s : State) (n : Nat) (c : Core) : (s.setCore n c).ready = s.ready := rfl
@[simp] theorem State.setCore_crews (s : State) (n : Nat) (c : Core) : (s.setCore n c).crews = s.crews := rfl
@[simp] theorem State.setCore_crewsEnded (s : State) (n : Nat) (c : Core) : (s.setCore n c).crewsEnded = s.crewsEnded := rfl
@[simp] theorem State.setCore_insts (s : State) (n : Nat) (c : Core) : (s.setCore n c).insts = s.insts := rfl
@[simp] theorem State.setCore_parts (s : State) (n : Nat) (c : Core) : (s.setCore n c).parts = s.parts := rfl
@[simp] theorem State.setCore_disc (s : State) (n : Nat) (c : Core) : (s.setCore n c).disc = s.disc := rfl
@[simp] theorem State.setCore_keys (s : State) (n : Nat) (c : Core) : (s.setCore n c).keys = s.keys := rfl
@[simp] theorem State.setCore_slices (s : State) (n : Nat) (c : Core) : (s.setCore n c).slices = s.slices := rfl
@[simp] theorem State.setCore_saved (s : State) (n : Nat) (c : Core) : (s.setCore n c).saved = s.saved := rfl
@[simp] theorem State.setCore_governor (s : State) (n : Nat) (c : Core) : (s.setCore n c).governor = s.governor := rfl
@[simp] theorem State.setCore_mgmt (s : State) (n : Nat) (c : Core) : (s.setCore n c).mgmt = s.mgmt := rfl
@[simp] theorem State.setCore_foano (s : State) (n : Nat) (c : Core) : (s.setCore n c).foano = s.foano := rfl
@[simp] theorem State.setCore_routes (s : State) (n : Nat) (c : Core) : (s.setCore n c).routes = s.routes := rfl
@[simp] theorem State.setCore_left (s : State) (n : Nat) (c : Core) : (s.setCore n c).left = s.left := rfl
@[simp] theorem State.setCore_linksDown (s : State) (n : Nat) (c : Core) : (s.setCore n c).linksDown = s.linksDown := rfl
@[simp] theorem State.setCore_drains (s : State) (n : Nat) (c : Core) : (s.setCore n c).drains = s.drains := rfl
@[simp] theorem State.setCore_forced (s : State) (n : Nat) (c : Core) : (s.setCore n c).forced = s.forced := rfl
@[simp] theorem State.setCore_tgsNext (s : State) (n : Nat) (c : Core) : (s.setCore n c).tgsNext = s.tgsNext := rfl
@[simp] theorem State.setCore_tgsRound (s : State) (n : Nat) (c : Core) : (s.setCore n c).tgsRound = s.tgsRound := rfl
@[simp] theorem State.setCore_stamp (s : State) (n : Nat) (c : Core) : (s.setCore n c).stamp = s.stamp := rfl
@[simp] theorem State.setCore_hostLinkDown (s : State) (n : Nat) (c : Core) : (s.setCore n c).hostLinkDown = s.hostLinkDown := rfl
@[simp] theorem State.setCore_written (s : State) (n : Nat) (c : Core) : (s.setCore n c).written = s.written := rfl
@[simp] theorem State.setCore_fabric (s : State) (n : Nat) (c : Core) : (s.setCore n c).fabric = s.fabric := rfl
@[simp] theorem State.setCore_errored (s : State) (n : Nat) (c : Core) : (s.setCore n c).errored = s.errored := rfl
@[simp] theorem State.setCore_temps (s : State) (n : Nat) (c : Core) : (s.setCore n c).temps = s.temps := rfl
@[simp] theorem State.setCore_core (s : State) (n : Nat) (c : Core) : (s.setCore n c).core n = c := NMap.get_set_self _ _ _ _
theorem State.setCore_core_ne (s : State) (n : Nat) (c : Core) (m : Nat) (h : m ≠ n) : (s.setCore n c).core m = s.core m := NMap.get_set_ne _ _ _ h
@[simp] theorem State.setBuf_agenda (s : State) (n : Nat) (x : Buf) : (s.setBuf n x).agenda = s.agenda := rfl
@[simp] theorem State.setBuf_turn (s : State) (n : Nat) (x : Buf) : (s.setBuf n x).turn = s.turn := rfl
@[simp] theorem State.setBuf_now (s : State) (n : Nat) (x : Buf) : (s.setBuf n x).now = s.now := rfl
@[simp] theorem State.setBuf_draws (s : State) (n : Nat) (x : Buf) : (s.setBuf n x).draws = s.draws := rfl
@[simp] theorem State.setBuf_inbox (s : State) (n : Nat) (x : Buf) : (s.setBuf n x).inbox = s.inbox := rfl
@[simp] theorem State.setBuf_population (s : State) (n : Nat) (x : Buf) : (s.setBuf n x).population = s.population := rfl
@[simp] theorem State.setBuf_cores (s : State) (n : Nat) (x : Buf) : (s.setBuf n x).cores = s.cores := rfl
@[simp] theorem State.setBuf_cycles (s : State) (n : Nat) (x : Buf) : (s.setBuf n x).cycles = s.cycles := rfl
@[simp] theorem State.setBuf_mem (s : State) (n : Nat) (x : Buf) : (s.setBuf n x).mem = s.mem := rfl
@[simp] theorem State.setBuf_poison (s : State) (n : Nat) (x : Buf) : (s.setBuf n x).poison = s.poison := rfl
@[simp] theorem State.setBuf_coded (s : State) (n : Nat) (x : Buf) : (s.setBuf n x).coded = s.coded := rfl
@[simp] theorem State.setBuf_pins (s : State) (n : Nat) (x : Buf) : (s.setBuf n x).pins = s.pins := rfl
@[simp] theorem State.setBuf_freedBids (s : State) (n : Nat) (x : Buf) : (s.setBuf n x).freedBids = s.freedBids := rfl
@[simp] theorem State.setBuf_extUsed (s : State) (n : Nat) (x : Buf) : (s.setBuf n x).extUsed = s.extUsed := rfl
@[simp] theorem State.setBuf_exts (s : State) (n : Nat) (x : Buf) : (s.setBuf n x).exts = s.exts := rfl
@[simp] theorem State.setBuf_tier2 (s : State) (n : Nat) (x : Buf) : (s.setBuf n x).tier2 = s.tier2 := rfl
@[simp] theorem State.setBuf_ranges (s : State) (n : Nat) (x : Buf) : (s.setBuf n x).ranges = s.ranges := rfl
@[simp] theorem State.setBuf_reclaims (s : State) (n : Nat) (x : Buf) : (s.setBuf n x).reclaims = s.reclaims := rfl
@[simp] theorem State.setBuf_latches (s : State) (n : Nat) (x : Buf) : (s.setBuf n x).latches = s.latches := rfl
@[simp] theorem State.setBuf_regions (s : State) (n : Nat) (x : Buf) : (s.setBuf n x).regions = s.regions := rfl
@[simp] theorem State.setBuf_bins (s : State) (n : Nat) (x : Buf) : (s.setBuf n x).bins = s.bins := rfl
@[simp] theorem State.setBuf_engines (s : State) (n : Nat) (x : Buf) : (s.setBuf n x).engines = s.engines := rfl
@[simp] theorem State.setBuf_arrays (s : State) (n : Nat) (x : Buf) : (s.setBuf n x).arrays = s.arrays := rfl
@[simp] theorem State.setBuf_walkers (s : State) (n : Nat) (x : Buf) : (s.setBuf n x).walkers = s.walkers := rfl
@[simp] theorem State.setBuf_ssm (s : State) (n : Nat) (x : Buf) : (s.setBuf n x).ssm = s.ssm := rfl
@[simp] theorem State.setBuf_ssmGroups (s : State) (n : Nat) (x : Buf) : (s.setBuf n x).ssmGroups = s.ssmGroups := rfl
@[simp] theorem State.setBuf_ssmHeld (s : State) (n : Nat) (x : Buf) : (s.setBuf n x).ssmHeld = s.ssmHeld := rfl
@[simp] theorem State.setBuf_flags (s : State) (n : Nat) (x : Buf) : (s.setBuf n x).flags = s.flags := rfl
@[simp] theorem State.setBuf_prc (s : State) (n : Nat) (x : Buf) : (s.setBuf n x).prc = s.prc := rfl
@[simp] theorem State.setBuf_remotes (s : State) (n : Nat) (x : Buf) : (s.setBuf n x).remotes = s.remotes := rfl
@[simp] theorem State.setBuf_diagShared (s : State) (n : Nat) (x : Buf) : (s.setBuf n x).diagShared = s.diagShared := rfl
@[simp] theorem State.setBuf_rcbs (s : State) (n : Nat) (x : Buf) : (s.setBuf n x).rcbs = s.rcbs := rfl
@[simp] theorem State.setBuf_rings (s : State) (n : Nat) (x : Buf) : (s.setBuf n x).rings = s.rings := rfl
@[simp] theorem State.setBuf_nodes (s : State) (n : Nat) (x : Buf) : (s.setBuf n x).nodes = s.nodes := rfl
@[simp] theorem State.setBuf_ready (s : State) (n : Nat) (x : Buf) : (s.setBuf n x).ready = s.ready := rfl
@[simp] theorem State.setBuf_crews (s : State) (n : Nat) (x : Buf) : (s.setBuf n x).crews = s.crews := rfl
@[simp] theorem State.setBuf_crewsEnded (s : State) (n : Nat) (x : Buf) : (s.setBuf n x).crewsEnded = s.crewsEnded := rfl
@[simp] theorem State.setBuf_insts (s : State) (n : Nat) (x : Buf) : (s.setBuf n x).insts = s.insts := rfl
@[simp] theorem State.setBuf_parts (s : State) (n : Nat) (x : Buf) : (s.setBuf n x).parts = s.parts := rfl
@[simp] theorem State.setBuf_disc (s : State) (n : Nat) (x : Buf) : (s.setBuf n x).disc = s.disc := rfl
@[simp] theorem State.setBuf_keys (s : State) (n : Nat) (x : Buf) : (s.setBuf n x).keys = s.keys := rfl
@[simp] theorem State.setBuf_slices (s : State) (n : Nat) (x : Buf) : (s.setBuf n x).slices = s.slices := rfl
@[simp] theorem State.setBuf_saved (s : State) (n : Nat) (x : Buf) : (s.setBuf n x).saved = s.saved := rfl
@[simp] theorem State.setBuf_governor (s : State) (n : Nat) (x : Buf) : (s.setBuf n x).governor = s.governor := rfl
@[simp] theorem State.setBuf_mgmt (s : State) (n : Nat) (x : Buf) : (s.setBuf n x).mgmt = s.mgmt := rfl
@[simp] theorem State.setBuf_foano (s : State) (n : Nat) (x : Buf) : (s.setBuf n x).foano = s.foano := rfl
@[simp] theorem State.setBuf_routes (s : State) (n : Nat) (x : Buf) : (s.setBuf n x).routes = s.routes := rfl
@[simp] theorem State.setBuf_left (s : State) (n : Nat) (x : Buf) : (s.setBuf n x).left = s.left := rfl
@[simp] theorem State.setBuf_linksDown (s : State) (n : Nat) (x : Buf) : (s.setBuf n x).linksDown = s.linksDown := rfl
@[simp] theorem State.setBuf_drains (s : State) (n : Nat) (x : Buf) : (s.setBuf n x).drains = s.drains := rfl
@[simp] theorem State.setBuf_forced (s : State) (n : Nat) (x : Buf) : (s.setBuf n x).forced = s.forced := rfl
@[simp] theorem State.setBuf_tgsNext (s : State) (n : Nat) (x : Buf) : (s.setBuf n x).tgsNext = s.tgsNext := rfl
@[simp] theorem State.setBuf_tgsRound (s : State) (n : Nat) (x : Buf) : (s.setBuf n x).tgsRound = s.tgsRound := rfl
@[simp] theorem State.setBuf_stamp (s : State) (n : Nat) (x : Buf) : (s.setBuf n x).stamp = s.stamp := rfl
@[simp] theorem State.setBuf_hostLinkDown (s : State) (n : Nat) (x : Buf) : (s.setBuf n x).hostLinkDown = s.hostLinkDown := rfl
@[simp] theorem State.setBuf_written (s : State) (n : Nat) (x : Buf) : (s.setBuf n x).written = s.written := rfl
@[simp] theorem State.setBuf_fabric (s : State) (n : Nat) (x : Buf) : (s.setBuf n x).fabric = s.fabric := rfl
@[simp] theorem State.setBuf_errored (s : State) (n : Nat) (x : Buf) : (s.setBuf n x).errored = s.errored := rfl
@[simp] theorem State.setBuf_temps (s : State) (n : Nat) (x : Buf) : (s.setBuf n x).temps = s.temps := rfl
@[simp] theorem State.setBuf_buf (s : State) (n : Nat) (x : Buf) : (s.setBuf n x).buf n = x := NMap.get_set_self _ _ _ _
theorem State.setBuf_buf_ne (s : State) (n : Nat) (x : Buf) (m : Nat) (h : m ≠ n) : (s.setBuf n x).buf m = s.buf m := NMap.get_set_ne _ _ _ h
@[simp] theorem State.setEng_agenda (s : State) (n : Nat) (x : Engine) : (s.setEng n x).agenda = s.agenda := rfl
@[simp] theorem State.setEng_turn (s : State) (n : Nat) (x : Engine) : (s.setEng n x).turn = s.turn := rfl
@[simp] theorem State.setEng_now (s : State) (n : Nat) (x : Engine) : (s.setEng n x).now = s.now := rfl
@[simp] theorem State.setEng_draws (s : State) (n : Nat) (x : Engine) : (s.setEng n x).draws = s.draws := rfl
@[simp] theorem State.setEng_inbox (s : State) (n : Nat) (x : Engine) : (s.setEng n x).inbox = s.inbox := rfl
@[simp] theorem State.setEng_population (s : State) (n : Nat) (x : Engine) : (s.setEng n x).population = s.population := rfl
@[simp] theorem State.setEng_cores (s : State) (n : Nat) (x : Engine) : (s.setEng n x).cores = s.cores := rfl
@[simp] theorem State.setEng_cycles (s : State) (n : Nat) (x : Engine) : (s.setEng n x).cycles = s.cycles := rfl
@[simp] theorem State.setEng_mem (s : State) (n : Nat) (x : Engine) : (s.setEng n x).mem = s.mem := rfl
@[simp] theorem State.setEng_poison (s : State) (n : Nat) (x : Engine) : (s.setEng n x).poison = s.poison := rfl
@[simp] theorem State.setEng_coded (s : State) (n : Nat) (x : Engine) : (s.setEng n x).coded = s.coded := rfl
@[simp] theorem State.setEng_bufs (s : State) (n : Nat) (x : Engine) : (s.setEng n x).bufs = s.bufs := rfl
@[simp] theorem State.setEng_pins (s : State) (n : Nat) (x : Engine) : (s.setEng n x).pins = s.pins := rfl
@[simp] theorem State.setEng_freedBids (s : State) (n : Nat) (x : Engine) : (s.setEng n x).freedBids = s.freedBids := rfl
@[simp] theorem State.setEng_extUsed (s : State) (n : Nat) (x : Engine) : (s.setEng n x).extUsed = s.extUsed := rfl
@[simp] theorem State.setEng_exts (s : State) (n : Nat) (x : Engine) : (s.setEng n x).exts = s.exts := rfl
@[simp] theorem State.setEng_tier2 (s : State) (n : Nat) (x : Engine) : (s.setEng n x).tier2 = s.tier2 := rfl
@[simp] theorem State.setEng_ranges (s : State) (n : Nat) (x : Engine) : (s.setEng n x).ranges = s.ranges := rfl
@[simp] theorem State.setEng_reclaims (s : State) (n : Nat) (x : Engine) : (s.setEng n x).reclaims = s.reclaims := rfl
@[simp] theorem State.setEng_latches (s : State) (n : Nat) (x : Engine) : (s.setEng n x).latches = s.latches := rfl
@[simp] theorem State.setEng_regions (s : State) (n : Nat) (x : Engine) : (s.setEng n x).regions = s.regions := rfl
@[simp] theorem State.setEng_bins (s : State) (n : Nat) (x : Engine) : (s.setEng n x).bins = s.bins := rfl
@[simp] theorem State.setEng_arrays (s : State) (n : Nat) (x : Engine) : (s.setEng n x).arrays = s.arrays := rfl
@[simp] theorem State.setEng_walkers (s : State) (n : Nat) (x : Engine) : (s.setEng n x).walkers = s.walkers := rfl
@[simp] theorem State.setEng_ssm (s : State) (n : Nat) (x : Engine) : (s.setEng n x).ssm = s.ssm := rfl
@[simp] theorem State.setEng_ssmGroups (s : State) (n : Nat) (x : Engine) : (s.setEng n x).ssmGroups = s.ssmGroups := rfl
@[simp] theorem State.setEng_ssmHeld (s : State) (n : Nat) (x : Engine) : (s.setEng n x).ssmHeld = s.ssmHeld := rfl
@[simp] theorem State.setEng_flags (s : State) (n : Nat) (x : Engine) : (s.setEng n x).flags = s.flags := rfl
@[simp] theorem State.setEng_prc (s : State) (n : Nat) (x : Engine) : (s.setEng n x).prc = s.prc := rfl
@[simp] theorem State.setEng_remotes (s : State) (n : Nat) (x : Engine) : (s.setEng n x).remotes = s.remotes := rfl
@[simp] theorem State.setEng_diagShared (s : State) (n : Nat) (x : Engine) : (s.setEng n x).diagShared = s.diagShared := rfl
@[simp] theorem State.setEng_rcbs (s : State) (n : Nat) (x : Engine) : (s.setEng n x).rcbs = s.rcbs := rfl
@[simp] theorem State.setEng_rings (s : State) (n : Nat) (x : Engine) : (s.setEng n x).rings = s.rings := rfl
@[simp] theorem State.setEng_nodes (s : State) (n : Nat) (x : Engine) : (s.setEng n x).nodes = s.nodes := rfl
@[simp] theorem State.setEng_ready (s : State) (n : Nat) (x : Engine) : (s.setEng n x).ready = s.ready := rfl
@[simp] theorem State.setEng_crews (s : State) (n : Nat) (x : Engine) : (s.setEng n x).crews = s.crews := rfl
@[simp] theorem State.setEng_crewsEnded (s : State) (n : Nat) (x : Engine) : (s.setEng n x).crewsEnded = s.crewsEnded := rfl
@[simp] theorem State.setEng_insts (s : State) (n : Nat) (x : Engine) : (s.setEng n x).insts = s.insts := rfl
@[simp] theorem State.setEng_parts (s : State) (n : Nat) (x : Engine) : (s.setEng n x).parts = s.parts := rfl
@[simp] theorem State.setEng_disc (s : State) (n : Nat) (x : Engine) : (s.setEng n x).disc = s.disc := rfl
@[simp] theorem State.setEng_keys (s : State) (n : Nat) (x : Engine) : (s.setEng n x).keys = s.keys := rfl
@[simp] theorem State.setEng_slices (s : State) (n : Nat) (x : Engine) : (s.setEng n x).slices = s.slices := rfl
@[simp] theorem State.setEng_saved (s : State) (n : Nat) (x : Engine) : (s.setEng n x).saved = s.saved := rfl
@[simp] theorem State.setEng_governor (s : State) (n : Nat) (x : Engine) : (s.setEng n x).governor = s.governor := rfl
@[simp] theorem State.setEng_mgmt (s : State) (n : Nat) (x : Engine) : (s.setEng n x).mgmt = s.mgmt := rfl
@[simp] theorem State.setEng_foano (s : State) (n : Nat) (x : Engine) : (s.setEng n x).foano = s.foano := rfl
@[simp] theorem State.setEng_routes (s : State) (n : Nat) (x : Engine) : (s.setEng n x).routes = s.routes := rfl
@[simp] theorem State.setEng_left (s : State) (n : Nat) (x : Engine) : (s.setEng n x).left = s.left := rfl
@[simp] theorem State.setEng_linksDown (s : State) (n : Nat) (x : Engine) : (s.setEng n x).linksDown = s.linksDown := rfl
@[simp] theorem State.setEng_drains (s : State) (n : Nat) (x : Engine) : (s.setEng n x).drains = s.drains := rfl
@[simp] theorem State.setEng_forced (s : State) (n : Nat) (x : Engine) : (s.setEng n x).forced = s.forced := rfl
@[simp] theorem State.setEng_tgsNext (s : State) (n : Nat) (x : Engine) : (s.setEng n x).tgsNext = s.tgsNext := rfl
@[simp] theorem State.setEng_tgsRound (s : State) (n : Nat) (x : Engine) : (s.setEng n x).tgsRound = s.tgsRound := rfl
@[simp] theorem State.setEng_stamp (s : State) (n : Nat) (x : Engine) : (s.setEng n x).stamp = s.stamp := rfl
@[simp] theorem State.setEng_hostLinkDown (s : State) (n : Nat) (x : Engine) : (s.setEng n x).hostLinkDown = s.hostLinkDown := rfl
@[simp] theorem State.setEng_written (s : State) (n : Nat) (x : Engine) : (s.setEng n x).written = s.written := rfl
@[simp] theorem State.setEng_fabric (s : State) (n : Nat) (x : Engine) : (s.setEng n x).fabric = s.fabric := rfl
@[simp] theorem State.setEng_errored (s : State) (n : Nat) (x : Engine) : (s.setEng n x).errored = s.errored := rfl
@[simp] theorem State.setEng_temps (s : State) (n : Nat) (x : Engine) : (s.setEng n x).temps = s.temps := rfl
@[simp] theorem State.setEng_eng (s : State) (n : Nat) (x : Engine) : (s.setEng n x).eng n = x := NMap.get_set_self _ _ _ _
theorem State.setEng_eng_ne (s : State) (n : Nat) (x : Engine) (m : Nat) (h : m ≠ n) : (s.setEng n x).eng m = s.eng m := NMap.get_set_ne _ _ _ h
@[simp] theorem State.setPart_agenda (s : State) (n : Nat) (x : Part) : (s.setPart n x).agenda = s.agenda := rfl
@[simp] theorem State.setPart_turn (s : State) (n : Nat) (x : Part) : (s.setPart n x).turn = s.turn := rfl
@[simp] theorem State.setPart_now (s : State) (n : Nat) (x : Part) : (s.setPart n x).now = s.now := rfl
@[simp] theorem State.setPart_draws (s : State) (n : Nat) (x : Part) : (s.setPart n x).draws = s.draws := rfl
@[simp] theorem State.setPart_inbox (s : State) (n : Nat) (x : Part) : (s.setPart n x).inbox = s.inbox := rfl
@[simp] theorem State.setPart_population (s : State) (n : Nat) (x : Part) : (s.setPart n x).population = s.population := rfl
@[simp] theorem State.setPart_cores (s : State) (n : Nat) (x : Part) : (s.setPart n x).cores = s.cores := rfl
@[simp] theorem State.setPart_cycles (s : State) (n : Nat) (x : Part) : (s.setPart n x).cycles = s.cycles := rfl
@[simp] theorem State.setPart_mem (s : State) (n : Nat) (x : Part) : (s.setPart n x).mem = s.mem := rfl
@[simp] theorem State.setPart_poison (s : State) (n : Nat) (x : Part) : (s.setPart n x).poison = s.poison := rfl
@[simp] theorem State.setPart_coded (s : State) (n : Nat) (x : Part) : (s.setPart n x).coded = s.coded := rfl
@[simp] theorem State.setPart_bufs (s : State) (n : Nat) (x : Part) : (s.setPart n x).bufs = s.bufs := rfl
@[simp] theorem State.setPart_pins (s : State) (n : Nat) (x : Part) : (s.setPart n x).pins = s.pins := rfl
@[simp] theorem State.setPart_freedBids (s : State) (n : Nat) (x : Part) : (s.setPart n x).freedBids = s.freedBids := rfl
@[simp] theorem State.setPart_extUsed (s : State) (n : Nat) (x : Part) : (s.setPart n x).extUsed = s.extUsed := rfl
@[simp] theorem State.setPart_exts (s : State) (n : Nat) (x : Part) : (s.setPart n x).exts = s.exts := rfl
@[simp] theorem State.setPart_tier2 (s : State) (n : Nat) (x : Part) : (s.setPart n x).tier2 = s.tier2 := rfl
@[simp] theorem State.setPart_ranges (s : State) (n : Nat) (x : Part) : (s.setPart n x).ranges = s.ranges := rfl
@[simp] theorem State.setPart_reclaims (s : State) (n : Nat) (x : Part) : (s.setPart n x).reclaims = s.reclaims := rfl
@[simp] theorem State.setPart_latches (s : State) (n : Nat) (x : Part) : (s.setPart n x).latches = s.latches := rfl
@[simp] theorem State.setPart_regions (s : State) (n : Nat) (x : Part) : (s.setPart n x).regions = s.regions := rfl
@[simp] theorem State.setPart_bins (s : State) (n : Nat) (x : Part) : (s.setPart n x).bins = s.bins := rfl
@[simp] theorem State.setPart_engines (s : State) (n : Nat) (x : Part) : (s.setPart n x).engines = s.engines := rfl
@[simp] theorem State.setPart_arrays (s : State) (n : Nat) (x : Part) : (s.setPart n x).arrays = s.arrays := rfl
@[simp] theorem State.setPart_walkers (s : State) (n : Nat) (x : Part) : (s.setPart n x).walkers = s.walkers := rfl
@[simp] theorem State.setPart_ssm (s : State) (n : Nat) (x : Part) : (s.setPart n x).ssm = s.ssm := rfl
@[simp] theorem State.setPart_ssmGroups (s : State) (n : Nat) (x : Part) : (s.setPart n x).ssmGroups = s.ssmGroups := rfl
@[simp] theorem State.setPart_ssmHeld (s : State) (n : Nat) (x : Part) : (s.setPart n x).ssmHeld = s.ssmHeld := rfl
@[simp] theorem State.setPart_flags (s : State) (n : Nat) (x : Part) : (s.setPart n x).flags = s.flags := rfl
@[simp] theorem State.setPart_prc (s : State) (n : Nat) (x : Part) : (s.setPart n x).prc = s.prc := rfl
@[simp] theorem State.setPart_remotes (s : State) (n : Nat) (x : Part) : (s.setPart n x).remotes = s.remotes := rfl
@[simp] theorem State.setPart_diagShared (s : State) (n : Nat) (x : Part) : (s.setPart n x).diagShared = s.diagShared := rfl
@[simp] theorem State.setPart_rcbs (s : State) (n : Nat) (x : Part) : (s.setPart n x).rcbs = s.rcbs := rfl
@[simp] theorem State.setPart_rings (s : State) (n : Nat) (x : Part) : (s.setPart n x).rings = s.rings := rfl
@[simp] theorem State.setPart_nodes (s : State) (n : Nat) (x : Part) : (s.setPart n x).nodes = s.nodes := rfl
@[simp] theorem State.setPart_ready (s : State) (n : Nat) (x : Part) : (s.setPart n x).ready = s.ready := rfl
@[simp] theorem State.setPart_crews (s : State) (n : Nat) (x : Part) : (s.setPart n x).crews = s.crews := rfl
@[simp] theorem State.setPart_crewsEnded (s : State) (n : Nat) (x : Part) : (s.setPart n x).crewsEnded = s.crewsEnded := rfl
@[simp] theorem State.setPart_insts (s : State) (n : Nat) (x : Part) : (s.setPart n x).insts = s.insts := rfl
@[simp] theorem State.setPart_disc (s : State) (n : Nat) (x : Part) : (s.setPart n x).disc = s.disc := rfl
@[simp] theorem State.setPart_keys (s : State) (n : Nat) (x : Part) : (s.setPart n x).keys = s.keys := rfl
@[simp] theorem State.setPart_slices (s : State) (n : Nat) (x : Part) : (s.setPart n x).slices = s.slices := rfl
@[simp] theorem State.setPart_saved (s : State) (n : Nat) (x : Part) : (s.setPart n x).saved = s.saved := rfl
@[simp] theorem State.setPart_governor (s : State) (n : Nat) (x : Part) : (s.setPart n x).governor = s.governor := rfl
@[simp] theorem State.setPart_mgmt (s : State) (n : Nat) (x : Part) : (s.setPart n x).mgmt = s.mgmt := rfl
@[simp] theorem State.setPart_foano (s : State) (n : Nat) (x : Part) : (s.setPart n x).foano = s.foano := rfl
@[simp] theorem State.setPart_routes (s : State) (n : Nat) (x : Part) : (s.setPart n x).routes = s.routes := rfl
@[simp] theorem State.setPart_left (s : State) (n : Nat) (x : Part) : (s.setPart n x).left = s.left := rfl
@[simp] theorem State.setPart_linksDown (s : State) (n : Nat) (x : Part) : (s.setPart n x).linksDown = s.linksDown := rfl
@[simp] theorem State.setPart_drains (s : State) (n : Nat) (x : Part) : (s.setPart n x).drains = s.drains := rfl
@[simp] theorem State.setPart_forced (s : State) (n : Nat) (x : Part) : (s.setPart n x).forced = s.forced := rfl
@[simp] theorem State.setPart_tgsNext (s : State) (n : Nat) (x : Part) : (s.setPart n x).tgsNext = s.tgsNext := rfl
@[simp] theorem State.setPart_tgsRound (s : State) (n : Nat) (x : Part) : (s.setPart n x).tgsRound = s.tgsRound := rfl
@[simp] theorem State.setPart_stamp (s : State) (n : Nat) (x : Part) : (s.setPart n x).stamp = s.stamp := rfl
@[simp] theorem State.setPart_hostLinkDown (s : State) (n : Nat) (x : Part) : (s.setPart n x).hostLinkDown = s.hostLinkDown := rfl
@[simp] theorem State.setPart_written (s : State) (n : Nat) (x : Part) : (s.setPart n x).written = s.written := rfl
@[simp] theorem State.setPart_fabric (s : State) (n : Nat) (x : Part) : (s.setPart n x).fabric = s.fabric := rfl
@[simp] theorem State.setPart_errored (s : State) (n : Nat) (x : Part) : (s.setPart n x).errored = s.errored := rfl
@[simp] theorem State.setPart_temps (s : State) (n : Nat) (x : Part) : (s.setPart n x).temps = s.temps := rfl
@[simp] theorem State.setPart_part (s : State) (n : Nat) (x : Part) : (s.setPart n x).part n = x := NMap.get_set_self _ _ _ _
theorem State.setPart_part_ne (s : State) (n : Nat) (x : Part) (m : Nat) (h : m ≠ n) : (s.setPart n x).part m = s.part m := NMap.get_set_ne _ _ _ h
@[simp] theorem State.setRcb_agenda (s : State) (n : Nat) (x : Rcb) : (s.setRcb n x).agenda = s.agenda := rfl
@[simp] theorem State.setRcb_turn (s : State) (n : Nat) (x : Rcb) : (s.setRcb n x).turn = s.turn := rfl
@[simp] theorem State.setRcb_now (s : State) (n : Nat) (x : Rcb) : (s.setRcb n x).now = s.now := rfl
@[simp] theorem State.setRcb_draws (s : State) (n : Nat) (x : Rcb) : (s.setRcb n x).draws = s.draws := rfl
@[simp] theorem State.setRcb_inbox (s : State) (n : Nat) (x : Rcb) : (s.setRcb n x).inbox = s.inbox := rfl
@[simp] theorem State.setRcb_population (s : State) (n : Nat) (x : Rcb) : (s.setRcb n x).population = s.population := rfl
@[simp] theorem State.setRcb_cores (s : State) (n : Nat) (x : Rcb) : (s.setRcb n x).cores = s.cores := rfl
@[simp] theorem State.setRcb_cycles (s : State) (n : Nat) (x : Rcb) : (s.setRcb n x).cycles = s.cycles := rfl
@[simp] theorem State.setRcb_mem (s : State) (n : Nat) (x : Rcb) : (s.setRcb n x).mem = s.mem := rfl
@[simp] theorem State.setRcb_poison (s : State) (n : Nat) (x : Rcb) : (s.setRcb n x).poison = s.poison := rfl
@[simp] theorem State.setRcb_coded (s : State) (n : Nat) (x : Rcb) : (s.setRcb n x).coded = s.coded := rfl
@[simp] theorem State.setRcb_bufs (s : State) (n : Nat) (x : Rcb) : (s.setRcb n x).bufs = s.bufs := rfl
@[simp] theorem State.setRcb_pins (s : State) (n : Nat) (x : Rcb) : (s.setRcb n x).pins = s.pins := rfl
@[simp] theorem State.setRcb_freedBids (s : State) (n : Nat) (x : Rcb) : (s.setRcb n x).freedBids = s.freedBids := rfl
@[simp] theorem State.setRcb_extUsed (s : State) (n : Nat) (x : Rcb) : (s.setRcb n x).extUsed = s.extUsed := rfl
@[simp] theorem State.setRcb_exts (s : State) (n : Nat) (x : Rcb) : (s.setRcb n x).exts = s.exts := rfl
@[simp] theorem State.setRcb_tier2 (s : State) (n : Nat) (x : Rcb) : (s.setRcb n x).tier2 = s.tier2 := rfl
@[simp] theorem State.setRcb_ranges (s : State) (n : Nat) (x : Rcb) : (s.setRcb n x).ranges = s.ranges := rfl
@[simp] theorem State.setRcb_reclaims (s : State) (n : Nat) (x : Rcb) : (s.setRcb n x).reclaims = s.reclaims := rfl
@[simp] theorem State.setRcb_latches (s : State) (n : Nat) (x : Rcb) : (s.setRcb n x).latches = s.latches := rfl
@[simp] theorem State.setRcb_regions (s : State) (n : Nat) (x : Rcb) : (s.setRcb n x).regions = s.regions := rfl
@[simp] theorem State.setRcb_bins (s : State) (n : Nat) (x : Rcb) : (s.setRcb n x).bins = s.bins := rfl
@[simp] theorem State.setRcb_engines (s : State) (n : Nat) (x : Rcb) : (s.setRcb n x).engines = s.engines := rfl
@[simp] theorem State.setRcb_arrays (s : State) (n : Nat) (x : Rcb) : (s.setRcb n x).arrays = s.arrays := rfl
@[simp] theorem State.setRcb_walkers (s : State) (n : Nat) (x : Rcb) : (s.setRcb n x).walkers = s.walkers := rfl
@[simp] theorem State.setRcb_ssm (s : State) (n : Nat) (x : Rcb) : (s.setRcb n x).ssm = s.ssm := rfl
@[simp] theorem State.setRcb_ssmGroups (s : State) (n : Nat) (x : Rcb) : (s.setRcb n x).ssmGroups = s.ssmGroups := rfl
@[simp] theorem State.setRcb_ssmHeld (s : State) (n : Nat) (x : Rcb) : (s.setRcb n x).ssmHeld = s.ssmHeld := rfl
@[simp] theorem State.setRcb_flags (s : State) (n : Nat) (x : Rcb) : (s.setRcb n x).flags = s.flags := rfl
@[simp] theorem State.setRcb_prc (s : State) (n : Nat) (x : Rcb) : (s.setRcb n x).prc = s.prc := rfl
@[simp] theorem State.setRcb_remotes (s : State) (n : Nat) (x : Rcb) : (s.setRcb n x).remotes = s.remotes := rfl
@[simp] theorem State.setRcb_diagShared (s : State) (n : Nat) (x : Rcb) : (s.setRcb n x).diagShared = s.diagShared := rfl
@[simp] theorem State.setRcb_rings (s : State) (n : Nat) (x : Rcb) : (s.setRcb n x).rings = s.rings := rfl
@[simp] theorem State.setRcb_nodes (s : State) (n : Nat) (x : Rcb) : (s.setRcb n x).nodes = s.nodes := rfl
@[simp] theorem State.setRcb_ready (s : State) (n : Nat) (x : Rcb) : (s.setRcb n x).ready = s.ready := rfl
@[simp] theorem State.setRcb_crews (s : State) (n : Nat) (x : Rcb) : (s.setRcb n x).crews = s.crews := rfl
@[simp] theorem State.setRcb_crewsEnded (s : State) (n : Nat) (x : Rcb) : (s.setRcb n x).crewsEnded = s.crewsEnded := rfl
@[simp] theorem State.setRcb_insts (s : State) (n : Nat) (x : Rcb) : (s.setRcb n x).insts = s.insts := rfl
@[simp] theorem State.setRcb_parts (s : State) (n : Nat) (x : Rcb) : (s.setRcb n x).parts = s.parts := rfl
@[simp] theorem State.setRcb_disc (s : State) (n : Nat) (x : Rcb) : (s.setRcb n x).disc = s.disc := rfl
@[simp] theorem State.setRcb_keys (s : State) (n : Nat) (x : Rcb) : (s.setRcb n x).keys = s.keys := rfl
@[simp] theorem State.setRcb_slices (s : State) (n : Nat) (x : Rcb) : (s.setRcb n x).slices = s.slices := rfl
@[simp] theorem State.setRcb_saved (s : State) (n : Nat) (x : Rcb) : (s.setRcb n x).saved = s.saved := rfl
@[simp] theorem State.setRcb_governor (s : State) (n : Nat) (x : Rcb) : (s.setRcb n x).governor = s.governor := rfl
@[simp] theorem State.setRcb_mgmt (s : State) (n : Nat) (x : Rcb) : (s.setRcb n x).mgmt = s.mgmt := rfl
@[simp] theorem State.setRcb_foano (s : State) (n : Nat) (x : Rcb) : (s.setRcb n x).foano = s.foano := rfl
@[simp] theorem State.setRcb_routes (s : State) (n : Nat) (x : Rcb) : (s.setRcb n x).routes = s.routes := rfl
@[simp] theorem State.setRcb_left (s : State) (n : Nat) (x : Rcb) : (s.setRcb n x).left = s.left := rfl
@[simp] theorem State.setRcb_linksDown (s : State) (n : Nat) (x : Rcb) : (s.setRcb n x).linksDown = s.linksDown := rfl
@[simp] theorem State.setRcb_drains (s : State) (n : Nat) (x : Rcb) : (s.setRcb n x).drains = s.drains := rfl
@[simp] theorem State.setRcb_forced (s : State) (n : Nat) (x : Rcb) : (s.setRcb n x).forced = s.forced := rfl
@[simp] theorem State.setRcb_tgsNext (s : State) (n : Nat) (x : Rcb) : (s.setRcb n x).tgsNext = s.tgsNext := rfl
@[simp] theorem State.setRcb_tgsRound (s : State) (n : Nat) (x : Rcb) : (s.setRcb n x).tgsRound = s.tgsRound := rfl
@[simp] theorem State.setRcb_stamp (s : State) (n : Nat) (x : Rcb) : (s.setRcb n x).stamp = s.stamp := rfl
@[simp] theorem State.setRcb_hostLinkDown (s : State) (n : Nat) (x : Rcb) : (s.setRcb n x).hostLinkDown = s.hostLinkDown := rfl
@[simp] theorem State.setRcb_written (s : State) (n : Nat) (x : Rcb) : (s.setRcb n x).written = s.written := rfl
@[simp] theorem State.setRcb_fabric (s : State) (n : Nat) (x : Rcb) : (s.setRcb n x).fabric = s.fabric := rfl
@[simp] theorem State.setRcb_errored (s : State) (n : Nat) (x : Rcb) : (s.setRcb n x).errored = s.errored := rfl
@[simp] theorem State.setRcb_temps (s : State) (n : Nat) (x : Rcb) : (s.setRcb n x).temps = s.temps := rfl
@[simp] theorem State.setRcb_rcb (s : State) (n : Nat) (x : Rcb) : (s.setRcb n x).rcb n = x := NMap.get_set_self _ _ _ _
theorem State.setRcb_rcb_ne (s : State) (n : Nat) (x : Rcb) (m : Nat) (h : m ≠ n) : (s.setRcb n x).rcb m = s.rcb m := NMap.get_set_ne _ _ _ h
@[simp] theorem State.setNode_agenda (s : State) (n : Nat) (x : Node) : (s.setNode n x).agenda = s.agenda := rfl
@[simp] theorem State.setNode_turn (s : State) (n : Nat) (x : Node) : (s.setNode n x).turn = s.turn := rfl
@[simp] theorem State.setNode_now (s : State) (n : Nat) (x : Node) : (s.setNode n x).now = s.now := rfl
@[simp] theorem State.setNode_draws (s : State) (n : Nat) (x : Node) : (s.setNode n x).draws = s.draws := rfl
@[simp] theorem State.setNode_inbox (s : State) (n : Nat) (x : Node) : (s.setNode n x).inbox = s.inbox := rfl
@[simp] theorem State.setNode_population (s : State) (n : Nat) (x : Node) : (s.setNode n x).population = s.population := rfl
@[simp] theorem State.setNode_cores (s : State) (n : Nat) (x : Node) : (s.setNode n x).cores = s.cores := rfl
@[simp] theorem State.setNode_cycles (s : State) (n : Nat) (x : Node) : (s.setNode n x).cycles = s.cycles := rfl
@[simp] theorem State.setNode_mem (s : State) (n : Nat) (x : Node) : (s.setNode n x).mem = s.mem := rfl
@[simp] theorem State.setNode_poison (s : State) (n : Nat) (x : Node) : (s.setNode n x).poison = s.poison := rfl
@[simp] theorem State.setNode_coded (s : State) (n : Nat) (x : Node) : (s.setNode n x).coded = s.coded := rfl
@[simp] theorem State.setNode_bufs (s : State) (n : Nat) (x : Node) : (s.setNode n x).bufs = s.bufs := rfl
@[simp] theorem State.setNode_pins (s : State) (n : Nat) (x : Node) : (s.setNode n x).pins = s.pins := rfl
@[simp] theorem State.setNode_freedBids (s : State) (n : Nat) (x : Node) : (s.setNode n x).freedBids = s.freedBids := rfl
@[simp] theorem State.setNode_extUsed (s : State) (n : Nat) (x : Node) : (s.setNode n x).extUsed = s.extUsed := rfl
@[simp] theorem State.setNode_exts (s : State) (n : Nat) (x : Node) : (s.setNode n x).exts = s.exts := rfl
@[simp] theorem State.setNode_tier2 (s : State) (n : Nat) (x : Node) : (s.setNode n x).tier2 = s.tier2 := rfl
@[simp] theorem State.setNode_ranges (s : State) (n : Nat) (x : Node) : (s.setNode n x).ranges = s.ranges := rfl
@[simp] theorem State.setNode_reclaims (s : State) (n : Nat) (x : Node) : (s.setNode n x).reclaims = s.reclaims := rfl
@[simp] theorem State.setNode_latches (s : State) (n : Nat) (x : Node) : (s.setNode n x).latches = s.latches := rfl
@[simp] theorem State.setNode_regions (s : State) (n : Nat) (x : Node) : (s.setNode n x).regions = s.regions := rfl
@[simp] theorem State.setNode_bins (s : State) (n : Nat) (x : Node) : (s.setNode n x).bins = s.bins := rfl
@[simp] theorem State.setNode_engines (s : State) (n : Nat) (x : Node) : (s.setNode n x).engines = s.engines := rfl
@[simp] theorem State.setNode_arrays (s : State) (n : Nat) (x : Node) : (s.setNode n x).arrays = s.arrays := rfl
@[simp] theorem State.setNode_walkers (s : State) (n : Nat) (x : Node) : (s.setNode n x).walkers = s.walkers := rfl
@[simp] theorem State.setNode_ssm (s : State) (n : Nat) (x : Node) : (s.setNode n x).ssm = s.ssm := rfl
@[simp] theorem State.setNode_ssmGroups (s : State) (n : Nat) (x : Node) : (s.setNode n x).ssmGroups = s.ssmGroups := rfl
@[simp] theorem State.setNode_ssmHeld (s : State) (n : Nat) (x : Node) : (s.setNode n x).ssmHeld = s.ssmHeld := rfl
@[simp] theorem State.setNode_flags (s : State) (n : Nat) (x : Node) : (s.setNode n x).flags = s.flags := rfl
@[simp] theorem State.setNode_prc (s : State) (n : Nat) (x : Node) : (s.setNode n x).prc = s.prc := rfl
@[simp] theorem State.setNode_remotes (s : State) (n : Nat) (x : Node) : (s.setNode n x).remotes = s.remotes := rfl
@[simp] theorem State.setNode_diagShared (s : State) (n : Nat) (x : Node) : (s.setNode n x).diagShared = s.diagShared := rfl
@[simp] theorem State.setNode_rcbs (s : State) (n : Nat) (x : Node) : (s.setNode n x).rcbs = s.rcbs := rfl
@[simp] theorem State.setNode_rings (s : State) (n : Nat) (x : Node) : (s.setNode n x).rings = s.rings := rfl
@[simp] theorem State.setNode_ready (s : State) (n : Nat) (x : Node) : (s.setNode n x).ready = s.ready := rfl
@[simp] theorem State.setNode_crews (s : State) (n : Nat) (x : Node) : (s.setNode n x).crews = s.crews := rfl
@[simp] theorem State.setNode_crewsEnded (s : State) (n : Nat) (x : Node) : (s.setNode n x).crewsEnded = s.crewsEnded := rfl
@[simp] theorem State.setNode_insts (s : State) (n : Nat) (x : Node) : (s.setNode n x).insts = s.insts := rfl
@[simp] theorem State.setNode_parts (s : State) (n : Nat) (x : Node) : (s.setNode n x).parts = s.parts := rfl
@[simp] theorem State.setNode_disc (s : State) (n : Nat) (x : Node) : (s.setNode n x).disc = s.disc := rfl
@[simp] theorem State.setNode_keys (s : State) (n : Nat) (x : Node) : (s.setNode n x).keys = s.keys := rfl
@[simp] theorem State.setNode_slices (s : State) (n : Nat) (x : Node) : (s.setNode n x).slices = s.slices := rfl
@[simp] theorem State.setNode_saved (s : State) (n : Nat) (x : Node) : (s.setNode n x).saved = s.saved := rfl
@[simp] theorem State.setNode_governor (s : State) (n : Nat) (x : Node) : (s.setNode n x).governor = s.governor := rfl
@[simp] theorem State.setNode_mgmt (s : State) (n : Nat) (x : Node) : (s.setNode n x).mgmt = s.mgmt := rfl
@[simp] theorem State.setNode_foano (s : State) (n : Nat) (x : Node) : (s.setNode n x).foano = s.foano := rfl
@[simp] theorem State.setNode_routes (s : State) (n : Nat) (x : Node) : (s.setNode n x).routes = s.routes := rfl
@[simp] theorem State.setNode_left (s : State) (n : Nat) (x : Node) : (s.setNode n x).left = s.left := rfl
@[simp] theorem State.setNode_linksDown (s : State) (n : Nat) (x : Node) : (s.setNode n x).linksDown = s.linksDown := rfl
@[simp] theorem State.setNode_drains (s : State) (n : Nat) (x : Node) : (s.setNode n x).drains = s.drains := rfl
@[simp] theorem State.setNode_forced (s : State) (n : Nat) (x : Node) : (s.setNode n x).forced = s.forced := rfl
@[simp] theorem State.setNode_tgsNext (s : State) (n : Nat) (x : Node) : (s.setNode n x).tgsNext = s.tgsNext := rfl
@[simp] theorem State.setNode_tgsRound (s : State) (n : Nat) (x : Node) : (s.setNode n x).tgsRound = s.tgsRound := rfl
@[simp] theorem State.setNode_stamp (s : State) (n : Nat) (x : Node) : (s.setNode n x).stamp = s.stamp := rfl
@[simp] theorem State.setNode_hostLinkDown (s : State) (n : Nat) (x : Node) : (s.setNode n x).hostLinkDown = s.hostLinkDown := rfl
@[simp] theorem State.setNode_written (s : State) (n : Nat) (x : Node) : (s.setNode n x).written = s.written := rfl
@[simp] theorem State.setNode_fabric (s : State) (n : Nat) (x : Node) : (s.setNode n x).fabric = s.fabric := rfl
@[simp] theorem State.setNode_errored (s : State) (n : Nat) (x : Node) : (s.setNode n x).errored = s.errored := rfl
@[simp] theorem State.setNode_temps (s : State) (n : Nat) (x : Node) : (s.setNode n x).temps = s.temps := rfl
@[simp] theorem State.setNode_node (s : State) (n : Nat) (x : Node) : (s.setNode n x).node n = x := NMap.get_set_self _ _ _ _
theorem State.setNode_node_ne (s : State) (n : Nat) (x : Node) (m : Nat) (h : m ≠ n) : (s.setNode n x).node m = s.node m := NMap.get_set_ne _ _ _ h
@[simp] theorem State.setCrew_agenda (s : State) (n : Nat) (x : Crew) : (s.setCrew n x).agenda = s.agenda := rfl
@[simp] theorem State.setCrew_turn (s : State) (n : Nat) (x : Crew) : (s.setCrew n x).turn = s.turn := rfl
@[simp] theorem State.setCrew_now (s : State) (n : Nat) (x : Crew) : (s.setCrew n x).now = s.now := rfl
@[simp] theorem State.setCrew_draws (s : State) (n : Nat) (x : Crew) : (s.setCrew n x).draws = s.draws := rfl
@[simp] theorem State.setCrew_inbox (s : State) (n : Nat) (x : Crew) : (s.setCrew n x).inbox = s.inbox := rfl
@[simp] theorem State.setCrew_population (s : State) (n : Nat) (x : Crew) : (s.setCrew n x).population = s.population := rfl
@[simp] theorem State.setCrew_cores (s : State) (n : Nat) (x : Crew) : (s.setCrew n x).cores = s.cores := rfl
@[simp] theorem State.setCrew_cycles (s : State) (n : Nat) (x : Crew) : (s.setCrew n x).cycles = s.cycles := rfl
@[simp] theorem State.setCrew_mem (s : State) (n : Nat) (x : Crew) : (s.setCrew n x).mem = s.mem := rfl
@[simp] theorem State.setCrew_poison (s : State) (n : Nat) (x : Crew) : (s.setCrew n x).poison = s.poison := rfl
@[simp] theorem State.setCrew_coded (s : State) (n : Nat) (x : Crew) : (s.setCrew n x).coded = s.coded := rfl
@[simp] theorem State.setCrew_bufs (s : State) (n : Nat) (x : Crew) : (s.setCrew n x).bufs = s.bufs := rfl
@[simp] theorem State.setCrew_pins (s : State) (n : Nat) (x : Crew) : (s.setCrew n x).pins = s.pins := rfl
@[simp] theorem State.setCrew_freedBids (s : State) (n : Nat) (x : Crew) : (s.setCrew n x).freedBids = s.freedBids := rfl
@[simp] theorem State.setCrew_extUsed (s : State) (n : Nat) (x : Crew) : (s.setCrew n x).extUsed = s.extUsed := rfl
@[simp] theorem State.setCrew_exts (s : State) (n : Nat) (x : Crew) : (s.setCrew n x).exts = s.exts := rfl
@[simp] theorem State.setCrew_tier2 (s : State) (n : Nat) (x : Crew) : (s.setCrew n x).tier2 = s.tier2 := rfl
@[simp] theorem State.setCrew_ranges (s : State) (n : Nat) (x : Crew) : (s.setCrew n x).ranges = s.ranges := rfl
@[simp] theorem State.setCrew_reclaims (s : State) (n : Nat) (x : Crew) : (s.setCrew n x).reclaims = s.reclaims := rfl
@[simp] theorem State.setCrew_latches (s : State) (n : Nat) (x : Crew) : (s.setCrew n x).latches = s.latches := rfl
@[simp] theorem State.setCrew_regions (s : State) (n : Nat) (x : Crew) : (s.setCrew n x).regions = s.regions := rfl
@[simp] theorem State.setCrew_bins (s : State) (n : Nat) (x : Crew) : (s.setCrew n x).bins = s.bins := rfl
@[simp] theorem State.setCrew_engines (s : State) (n : Nat) (x : Crew) : (s.setCrew n x).engines = s.engines := rfl
@[simp] theorem State.setCrew_arrays (s : State) (n : Nat) (x : Crew) : (s.setCrew n x).arrays = s.arrays := rfl
@[simp] theorem State.setCrew_walkers (s : State) (n : Nat) (x : Crew) : (s.setCrew n x).walkers = s.walkers := rfl
@[simp] theorem State.setCrew_ssm (s : State) (n : Nat) (x : Crew) : (s.setCrew n x).ssm = s.ssm := rfl
@[simp] theorem State.setCrew_ssmGroups (s : State) (n : Nat) (x : Crew) : (s.setCrew n x).ssmGroups = s.ssmGroups := rfl
@[simp] theorem State.setCrew_ssmHeld (s : State) (n : Nat) (x : Crew) : (s.setCrew n x).ssmHeld = s.ssmHeld := rfl
@[simp] theorem State.setCrew_flags (s : State) (n : Nat) (x : Crew) : (s.setCrew n x).flags = s.flags := rfl
@[simp] theorem State.setCrew_prc (s : State) (n : Nat) (x : Crew) : (s.setCrew n x).prc = s.prc := rfl
@[simp] theorem State.setCrew_remotes (s : State) (n : Nat) (x : Crew) : (s.setCrew n x).remotes = s.remotes := rfl
@[simp] theorem State.setCrew_diagShared (s : State) (n : Nat) (x : Crew) : (s.setCrew n x).diagShared = s.diagShared := rfl
@[simp] theorem State.setCrew_rcbs (s : State) (n : Nat) (x : Crew) : (s.setCrew n x).rcbs = s.rcbs := rfl
@[simp] theorem State.setCrew_rings (s : State) (n : Nat) (x : Crew) : (s.setCrew n x).rings = s.rings := rfl
@[simp] theorem State.setCrew_nodes (s : State) (n : Nat) (x : Crew) : (s.setCrew n x).nodes = s.nodes := rfl
@[simp] theorem State.setCrew_ready (s : State) (n : Nat) (x : Crew) : (s.setCrew n x).ready = s.ready := rfl
@[simp] theorem State.setCrew_crewsEnded (s : State) (n : Nat) (x : Crew) : (s.setCrew n x).crewsEnded = s.crewsEnded := rfl
@[simp] theorem State.setCrew_insts (s : State) (n : Nat) (x : Crew) : (s.setCrew n x).insts = s.insts := rfl
@[simp] theorem State.setCrew_parts (s : State) (n : Nat) (x : Crew) : (s.setCrew n x).parts = s.parts := rfl
@[simp] theorem State.setCrew_disc (s : State) (n : Nat) (x : Crew) : (s.setCrew n x).disc = s.disc := rfl
@[simp] theorem State.setCrew_keys (s : State) (n : Nat) (x : Crew) : (s.setCrew n x).keys = s.keys := rfl
@[simp] theorem State.setCrew_slices (s : State) (n : Nat) (x : Crew) : (s.setCrew n x).slices = s.slices := rfl
@[simp] theorem State.setCrew_saved (s : State) (n : Nat) (x : Crew) : (s.setCrew n x).saved = s.saved := rfl
@[simp] theorem State.setCrew_governor (s : State) (n : Nat) (x : Crew) : (s.setCrew n x).governor = s.governor := rfl
@[simp] theorem State.setCrew_mgmt (s : State) (n : Nat) (x : Crew) : (s.setCrew n x).mgmt = s.mgmt := rfl
@[simp] theorem State.setCrew_foano (s : State) (n : Nat) (x : Crew) : (s.setCrew n x).foano = s.foano := rfl
@[simp] theorem State.setCrew_routes (s : State) (n : Nat) (x : Crew) : (s.setCrew n x).routes = s.routes := rfl
@[simp] theorem State.setCrew_left (s : State) (n : Nat) (x : Crew) : (s.setCrew n x).left = s.left := rfl
@[simp] theorem State.setCrew_linksDown (s : State) (n : Nat) (x : Crew) : (s.setCrew n x).linksDown = s.linksDown := rfl
@[simp] theorem State.setCrew_drains (s : State) (n : Nat) (x : Crew) : (s.setCrew n x).drains = s.drains := rfl
@[simp] theorem State.setCrew_forced (s : State) (n : Nat) (x : Crew) : (s.setCrew n x).forced = s.forced := rfl
@[simp] theorem State.setCrew_tgsNext (s : State) (n : Nat) (x : Crew) : (s.setCrew n x).tgsNext = s.tgsNext := rfl
@[simp] theorem State.setCrew_tgsRound (s : State) (n : Nat) (x : Crew) : (s.setCrew n x).tgsRound = s.tgsRound := rfl
@[simp] theorem State.setCrew_stamp (s : State) (n : Nat) (x : Crew) : (s.setCrew n x).stamp = s.stamp := rfl
@[simp] theorem State.setCrew_hostLinkDown (s : State) (n : Nat) (x : Crew) : (s.setCrew n x).hostLinkDown = s.hostLinkDown := rfl
@[simp] theorem State.setCrew_written (s : State) (n : Nat) (x : Crew) : (s.setCrew n x).written = s.written := rfl
@[simp] theorem State.setCrew_fabric (s : State) (n : Nat) (x : Crew) : (s.setCrew n x).fabric = s.fabric := rfl
@[simp] theorem State.setCrew_errored (s : State) (n : Nat) (x : Crew) : (s.setCrew n x).errored = s.errored := rfl
@[simp] theorem State.setCrew_temps (s : State) (n : Nat) (x : Crew) : (s.setCrew n x).temps = s.temps := rfl
@[simp] theorem State.setCrew_crew (s : State) (n : Nat) (x : Crew) : (s.setCrew n x).crew n = x := NMap.get_set_self _ _ _ _
theorem State.setCrew_crew_ne (s : State) (n : Nat) (x : Crew) (m : Nat) (h : m ≠ n) : (s.setCrew n x).crew m = s.crew m := NMap.get_set_ne _ _ _ h
@[simp] theorem State.setInst_agenda (s : State) (n : Nat) (x : Inst) : (s.setInst n x).agenda = s.agenda := rfl
@[simp] theorem State.setInst_turn (s : State) (n : Nat) (x : Inst) : (s.setInst n x).turn = s.turn := rfl
@[simp] theorem State.setInst_now (s : State) (n : Nat) (x : Inst) : (s.setInst n x).now = s.now := rfl
@[simp] theorem State.setInst_draws (s : State) (n : Nat) (x : Inst) : (s.setInst n x).draws = s.draws := rfl
@[simp] theorem State.setInst_inbox (s : State) (n : Nat) (x : Inst) : (s.setInst n x).inbox = s.inbox := rfl
@[simp] theorem State.setInst_population (s : State) (n : Nat) (x : Inst) : (s.setInst n x).population = s.population := rfl
@[simp] theorem State.setInst_cores (s : State) (n : Nat) (x : Inst) : (s.setInst n x).cores = s.cores := rfl
@[simp] theorem State.setInst_cycles (s : State) (n : Nat) (x : Inst) : (s.setInst n x).cycles = s.cycles := rfl
@[simp] theorem State.setInst_mem (s : State) (n : Nat) (x : Inst) : (s.setInst n x).mem = s.mem := rfl
@[simp] theorem State.setInst_poison (s : State) (n : Nat) (x : Inst) : (s.setInst n x).poison = s.poison := rfl
@[simp] theorem State.setInst_coded (s : State) (n : Nat) (x : Inst) : (s.setInst n x).coded = s.coded := rfl
@[simp] theorem State.setInst_bufs (s : State) (n : Nat) (x : Inst) : (s.setInst n x).bufs = s.bufs := rfl
@[simp] theorem State.setInst_pins (s : State) (n : Nat) (x : Inst) : (s.setInst n x).pins = s.pins := rfl
@[simp] theorem State.setInst_freedBids (s : State) (n : Nat) (x : Inst) : (s.setInst n x).freedBids = s.freedBids := rfl
@[simp] theorem State.setInst_extUsed (s : State) (n : Nat) (x : Inst) : (s.setInst n x).extUsed = s.extUsed := rfl
@[simp] theorem State.setInst_exts (s : State) (n : Nat) (x : Inst) : (s.setInst n x).exts = s.exts := rfl
@[simp] theorem State.setInst_tier2 (s : State) (n : Nat) (x : Inst) : (s.setInst n x).tier2 = s.tier2 := rfl
@[simp] theorem State.setInst_ranges (s : State) (n : Nat) (x : Inst) : (s.setInst n x).ranges = s.ranges := rfl
@[simp] theorem State.setInst_reclaims (s : State) (n : Nat) (x : Inst) : (s.setInst n x).reclaims = s.reclaims := rfl
@[simp] theorem State.setInst_latches (s : State) (n : Nat) (x : Inst) : (s.setInst n x).latches = s.latches := rfl
@[simp] theorem State.setInst_regions (s : State) (n : Nat) (x : Inst) : (s.setInst n x).regions = s.regions := rfl
@[simp] theorem State.setInst_bins (s : State) (n : Nat) (x : Inst) : (s.setInst n x).bins = s.bins := rfl
@[simp] theorem State.setInst_engines (s : State) (n : Nat) (x : Inst) : (s.setInst n x).engines = s.engines := rfl
@[simp] theorem State.setInst_arrays (s : State) (n : Nat) (x : Inst) : (s.setInst n x).arrays = s.arrays := rfl
@[simp] theorem State.setInst_walkers (s : State) (n : Nat) (x : Inst) : (s.setInst n x).walkers = s.walkers := rfl
@[simp] theorem State.setInst_ssm (s : State) (n : Nat) (x : Inst) : (s.setInst n x).ssm = s.ssm := rfl
@[simp] theorem State.setInst_ssmGroups (s : State) (n : Nat) (x : Inst) : (s.setInst n x).ssmGroups = s.ssmGroups := rfl
@[simp] theorem State.setInst_ssmHeld (s : State) (n : Nat) (x : Inst) : (s.setInst n x).ssmHeld = s.ssmHeld := rfl
@[simp] theorem State.setInst_flags (s : State) (n : Nat) (x : Inst) : (s.setInst n x).flags = s.flags := rfl
@[simp] theorem State.setInst_prc (s : State) (n : Nat) (x : Inst) : (s.setInst n x).prc = s.prc := rfl
@[simp] theorem State.setInst_remotes (s : State) (n : Nat) (x : Inst) : (s.setInst n x).remotes = s.remotes := rfl
@[simp] theorem State.setInst_diagShared (s : State) (n : Nat) (x : Inst) : (s.setInst n x).diagShared = s.diagShared := rfl
@[simp] theorem State.setInst_rcbs (s : State) (n : Nat) (x : Inst) : (s.setInst n x).rcbs = s.rcbs := rfl
@[simp] theorem State.setInst_rings (s : State) (n : Nat) (x : Inst) : (s.setInst n x).rings = s.rings := rfl
@[simp] theorem State.setInst_nodes (s : State) (n : Nat) (x : Inst) : (s.setInst n x).nodes = s.nodes := rfl
@[simp] theorem State.setInst_ready (s : State) (n : Nat) (x : Inst) : (s.setInst n x).ready = s.ready := rfl
@[simp] theorem State.setInst_crews (s : State) (n : Nat) (x : Inst) : (s.setInst n x).crews = s.crews := rfl
@[simp] theorem State.setInst_crewsEnded (s : State) (n : Nat) (x : Inst) : (s.setInst n x).crewsEnded = s.crewsEnded := rfl
@[simp] theorem State.setInst_parts (s : State) (n : Nat) (x : Inst) : (s.setInst n x).parts = s.parts := rfl
@[simp] theorem State.setInst_disc (s : State) (n : Nat) (x : Inst) : (s.setInst n x).disc = s.disc := rfl
@[simp] theorem State.setInst_keys (s : State) (n : Nat) (x : Inst) : (s.setInst n x).keys = s.keys := rfl
@[simp] theorem State.setInst_slices (s : State) (n : Nat) (x : Inst) : (s.setInst n x).slices = s.slices := rfl
@[simp] theorem State.setInst_saved (s : State) (n : Nat) (x : Inst) : (s.setInst n x).saved = s.saved := rfl
@[simp] theorem State.setInst_governor (s : State) (n : Nat) (x : Inst) : (s.setInst n x).governor = s.governor := rfl
@[simp] theorem State.setInst_mgmt (s : State) (n : Nat) (x : Inst) : (s.setInst n x).mgmt = s.mgmt := rfl
@[simp] theorem State.setInst_foano (s : State) (n : Nat) (x : Inst) : (s.setInst n x).foano = s.foano := rfl
@[simp] theorem State.setInst_routes (s : State) (n : Nat) (x : Inst) : (s.setInst n x).routes = s.routes := rfl
@[simp] theorem State.setInst_left (s : State) (n : Nat) (x : Inst) : (s.setInst n x).left = s.left := rfl
@[simp] theorem State.setInst_linksDown (s : State) (n : Nat) (x : Inst) : (s.setInst n x).linksDown = s.linksDown := rfl
@[simp] theorem State.setInst_drains (s : State) (n : Nat) (x : Inst) : (s.setInst n x).drains = s.drains := rfl
@[simp] theorem State.setInst_forced (s : State) (n : Nat) (x : Inst) : (s.setInst n x).forced = s.forced := rfl
@[simp] theorem State.setInst_tgsNext (s : State) (n : Nat) (x : Inst) : (s.setInst n x).tgsNext = s.tgsNext := rfl
@[simp] theorem State.setInst_tgsRound (s : State) (n : Nat) (x : Inst) : (s.setInst n x).tgsRound = s.tgsRound := rfl
@[simp] theorem State.setInst_stamp (s : State) (n : Nat) (x : Inst) : (s.setInst n x).stamp = s.stamp := rfl
@[simp] theorem State.setInst_hostLinkDown (s : State) (n : Nat) (x : Inst) : (s.setInst n x).hostLinkDown = s.hostLinkDown := rfl
@[simp] theorem State.setInst_written (s : State) (n : Nat) (x : Inst) : (s.setInst n x).written = s.written := rfl
@[simp] theorem State.setInst_fabric (s : State) (n : Nat) (x : Inst) : (s.setInst n x).fabric = s.fabric := rfl
@[simp] theorem State.setInst_errored (s : State) (n : Nat) (x : Inst) : (s.setInst n x).errored = s.errored := rfl
@[simp] theorem State.setInst_temps (s : State) (n : Nat) (x : Inst) : (s.setInst n x).temps = s.temps := rfl
@[simp] theorem State.setInst_inst (s : State) (n : Nat) (x : Inst) : (s.setInst n x).inst n = x := NMap.get_set_self _ _ _ _
theorem State.setInst_inst_ne (s : State) (n : Nat) (x : Inst) (m : Nat) (h : m ≠ n) : (s.setInst n x).inst m = s.inst m := NMap.get_set_ne _ _ _ h
@[simp] theorem State.setWalker_agenda (s : State) (n : Nat) (x : Walker) : (s.setWalker n x).agenda = s.agenda := rfl
@[simp] theorem State.setWalker_turn (s : State) (n : Nat) (x : Walker) : (s.setWalker n x).turn = s.turn := rfl
@[simp] theorem State.setWalker_now (s : State) (n : Nat) (x : Walker) : (s.setWalker n x).now = s.now := rfl
@[simp] theorem State.setWalker_draws (s : State) (n : Nat) (x : Walker) : (s.setWalker n x).draws = s.draws := rfl
@[simp] theorem State.setWalker_inbox (s : State) (n : Nat) (x : Walker) : (s.setWalker n x).inbox = s.inbox := rfl
@[simp] theorem State.setWalker_population (s : State) (n : Nat) (x : Walker) : (s.setWalker n x).population = s.population := rfl
@[simp] theorem State.setWalker_cores (s : State) (n : Nat) (x : Walker) : (s.setWalker n x).cores = s.cores := rfl
@[simp] theorem State.setWalker_cycles (s : State) (n : Nat) (x : Walker) : (s.setWalker n x).cycles = s.cycles := rfl
@[simp] theorem State.setWalker_mem (s : State) (n : Nat) (x : Walker) : (s.setWalker n x).mem = s.mem := rfl
@[simp] theorem State.setWalker_poison (s : State) (n : Nat) (x : Walker) : (s.setWalker n x).poison = s.poison := rfl
@[simp] theorem State.setWalker_coded (s : State) (n : Nat) (x : Walker) : (s.setWalker n x).coded = s.coded := rfl
@[simp] theorem State.setWalker_bufs (s : State) (n : Nat) (x : Walker) : (s.setWalker n x).bufs = s.bufs := rfl
@[simp] theorem State.setWalker_pins (s : State) (n : Nat) (x : Walker) : (s.setWalker n x).pins = s.pins := rfl
@[simp] theorem State.setWalker_freedBids (s : State) (n : Nat) (x : Walker) : (s.setWalker n x).freedBids = s.freedBids := rfl
@[simp] theorem State.setWalker_extUsed (s : State) (n : Nat) (x : Walker) : (s.setWalker n x).extUsed = s.extUsed := rfl
@[simp] theorem State.setWalker_exts (s : State) (n : Nat) (x : Walker) : (s.setWalker n x).exts = s.exts := rfl
@[simp] theorem State.setWalker_tier2 (s : State) (n : Nat) (x : Walker) : (s.setWalker n x).tier2 = s.tier2 := rfl
@[simp] theorem State.setWalker_ranges (s : State) (n : Nat) (x : Walker) : (s.setWalker n x).ranges = s.ranges := rfl
@[simp] theorem State.setWalker_reclaims (s : State) (n : Nat) (x : Walker) : (s.setWalker n x).reclaims = s.reclaims := rfl
@[simp] theorem State.setWalker_latches (s : State) (n : Nat) (x : Walker) : (s.setWalker n x).latches = s.latches := rfl
@[simp] theorem State.setWalker_regions (s : State) (n : Nat) (x : Walker) : (s.setWalker n x).regions = s.regions := rfl
@[simp] theorem State.setWalker_bins (s : State) (n : Nat) (x : Walker) : (s.setWalker n x).bins = s.bins := rfl
@[simp] theorem State.setWalker_engines (s : State) (n : Nat) (x : Walker) : (s.setWalker n x).engines = s.engines := rfl
@[simp] theorem State.setWalker_arrays (s : State) (n : Nat) (x : Walker) : (s.setWalker n x).arrays = s.arrays := rfl
@[simp] theorem State.setWalker_ssm (s : State) (n : Nat) (x : Walker) : (s.setWalker n x).ssm = s.ssm := rfl
@[simp] theorem State.setWalker_ssmGroups (s : State) (n : Nat) (x : Walker) : (s.setWalker n x).ssmGroups = s.ssmGroups := rfl
@[simp] theorem State.setWalker_ssmHeld (s : State) (n : Nat) (x : Walker) : (s.setWalker n x).ssmHeld = s.ssmHeld := rfl
@[simp] theorem State.setWalker_flags (s : State) (n : Nat) (x : Walker) : (s.setWalker n x).flags = s.flags := rfl
@[simp] theorem State.setWalker_prc (s : State) (n : Nat) (x : Walker) : (s.setWalker n x).prc = s.prc := rfl
@[simp] theorem State.setWalker_remotes (s : State) (n : Nat) (x : Walker) : (s.setWalker n x).remotes = s.remotes := rfl
@[simp] theorem State.setWalker_diagShared (s : State) (n : Nat) (x : Walker) : (s.setWalker n x).diagShared = s.diagShared := rfl
@[simp] theorem State.setWalker_rcbs (s : State) (n : Nat) (x : Walker) : (s.setWalker n x).rcbs = s.rcbs := rfl
@[simp] theorem State.setWalker_rings (s : State) (n : Nat) (x : Walker) : (s.setWalker n x).rings = s.rings := rfl
@[simp] theorem State.setWalker_nodes (s : State) (n : Nat) (x : Walker) : (s.setWalker n x).nodes = s.nodes := rfl
@[simp] theorem State.setWalker_ready (s : State) (n : Nat) (x : Walker) : (s.setWalker n x).ready = s.ready := rfl
@[simp] theorem State.setWalker_crews (s : State) (n : Nat) (x : Walker) : (s.setWalker n x).crews = s.crews := rfl
@[simp] theorem State.setWalker_crewsEnded (s : State) (n : Nat) (x : Walker) : (s.setWalker n x).crewsEnded = s.crewsEnded := rfl
@[simp] theorem State.setWalker_insts (s : State) (n : Nat) (x : Walker) : (s.setWalker n x).insts = s.insts := rfl
@[simp] theorem State.setWalker_parts (s : State) (n : Nat) (x : Walker) : (s.setWalker n x).parts = s.parts := rfl
@[simp] theorem State.setWalker_disc (s : State) (n : Nat) (x : Walker) : (s.setWalker n x).disc = s.disc := rfl
@[simp] theorem State.setWalker_keys (s : State) (n : Nat) (x : Walker) : (s.setWalker n x).keys = s.keys := rfl
@[simp] theorem State.setWalker_slices (s : State) (n : Nat) (x : Walker) : (s.setWalker n x).slices = s.slices := rfl
@[simp] theorem State.setWalker_saved (s : State) (n : Nat) (x : Walker) : (s.setWalker n x).saved = s.saved := rfl
@[simp] theorem State.setWalker_governor (s : State) (n : Nat) (x : Walker) : (s.setWalker n x).governor = s.governor := rfl
@[simp] theorem State.setWalker_mgmt (s : State) (n : Nat) (x : Walker) : (s.setWalker n x).mgmt = s.mgmt := rfl
@[simp] theorem State.setWalker_foano (s : State) (n : Nat) (x : Walker) : (s.setWalker n x).foano = s.foano := rfl
@[simp] theorem State.setWalker_routes (s : State) (n : Nat) (x : Walker) : (s.setWalker n x).routes = s.routes := rfl
@[simp] theorem State.setWalker_left (s : State) (n : Nat) (x : Walker) : (s.setWalker n x).left = s.left := rfl
@[simp] theorem State.setWalker_linksDown (s : State) (n : Nat) (x : Walker) : (s.setWalker n x).linksDown = s.linksDown := rfl
@[simp] theorem State.setWalker_drains (s : State) (n : Nat) (x : Walker) : (s.setWalker n x).drains = s.drains := rfl
@[simp] theorem State.setWalker_forced (s : State) (n : Nat) (x : Walker) : (s.setWalker n x).forced = s.forced := rfl
@[simp] theorem State.setWalker_tgsNext (s : State) (n : Nat) (x : Walker) : (s.setWalker n x).tgsNext = s.tgsNext := rfl
@[simp] theorem State.setWalker_tgsRound (s : State) (n : Nat) (x : Walker) : (s.setWalker n x).tgsRound = s.tgsRound := rfl
@[simp] theorem State.setWalker_stamp (s : State) (n : Nat) (x : Walker) : (s.setWalker n x).stamp = s.stamp := rfl
@[simp] theorem State.setWalker_hostLinkDown (s : State) (n : Nat) (x : Walker) : (s.setWalker n x).hostLinkDown = s.hostLinkDown := rfl
@[simp] theorem State.setWalker_written (s : State) (n : Nat) (x : Walker) : (s.setWalker n x).written = s.written := rfl
@[simp] theorem State.setWalker_fabric (s : State) (n : Nat) (x : Walker) : (s.setWalker n x).fabric = s.fabric := rfl
@[simp] theorem State.setWalker_errored (s : State) (n : Nat) (x : Walker) : (s.setWalker n x).errored = s.errored := rfl
@[simp] theorem State.setWalker_temps (s : State) (n : Nat) (x : Walker) : (s.setWalker n x).temps = s.temps := rfl
@[simp] theorem State.setWalker_walker (s : State) (n : Nat) (x : Walker) : (s.setWalker n x).walker n = x := NMap.get_set_self _ _ _ _
theorem State.setWalker_walker_ne (s : State) (n : Nat) (x : Walker) (m : Nat) (h : m ≠ n) : (s.setWalker n x).walker m = s.walker m := NMap.get_set_ne _ _ _ h
@[simp] theorem State.setDisc_agenda (s : State) (n : Nat) (x : Disc) : (s.setDisc n x).agenda = s.agenda := rfl
@[simp] theorem State.setDisc_turn (s : State) (n : Nat) (x : Disc) : (s.setDisc n x).turn = s.turn := rfl
@[simp] theorem State.setDisc_now (s : State) (n : Nat) (x : Disc) : (s.setDisc n x).now = s.now := rfl
@[simp] theorem State.setDisc_draws (s : State) (n : Nat) (x : Disc) : (s.setDisc n x).draws = s.draws := rfl
@[simp] theorem State.setDisc_inbox (s : State) (n : Nat) (x : Disc) : (s.setDisc n x).inbox = s.inbox := rfl
@[simp] theorem State.setDisc_population (s : State) (n : Nat) (x : Disc) : (s.setDisc n x).population = s.population := rfl
@[simp] theorem State.setDisc_cores (s : State) (n : Nat) (x : Disc) : (s.setDisc n x).cores = s.cores := rfl
@[simp] theorem State.setDisc_cycles (s : State) (n : Nat) (x : Disc) : (s.setDisc n x).cycles = s.cycles := rfl
@[simp] theorem State.setDisc_mem (s : State) (n : Nat) (x : Disc) : (s.setDisc n x).mem = s.mem := rfl
@[simp] theorem State.setDisc_poison (s : State) (n : Nat) (x : Disc) : (s.setDisc n x).poison = s.poison := rfl
@[simp] theorem State.setDisc_coded (s : State) (n : Nat) (x : Disc) : (s.setDisc n x).coded = s.coded := rfl
@[simp] theorem State.setDisc_bufs (s : State) (n : Nat) (x : Disc) : (s.setDisc n x).bufs = s.bufs := rfl
@[simp] theorem State.setDisc_pins (s : State) (n : Nat) (x : Disc) : (s.setDisc n x).pins = s.pins := rfl
@[simp] theorem State.setDisc_freedBids (s : State) (n : Nat) (x : Disc) : (s.setDisc n x).freedBids = s.freedBids := rfl
@[simp] theorem State.setDisc_extUsed (s : State) (n : Nat) (x : Disc) : (s.setDisc n x).extUsed = s.extUsed := rfl
@[simp] theorem State.setDisc_exts (s : State) (n : Nat) (x : Disc) : (s.setDisc n x).exts = s.exts := rfl
@[simp] theorem State.setDisc_tier2 (s : State) (n : Nat) (x : Disc) : (s.setDisc n x).tier2 = s.tier2 := rfl
@[simp] theorem State.setDisc_ranges (s : State) (n : Nat) (x : Disc) : (s.setDisc n x).ranges = s.ranges := rfl
@[simp] theorem State.setDisc_reclaims (s : State) (n : Nat) (x : Disc) : (s.setDisc n x).reclaims = s.reclaims := rfl
@[simp] theorem State.setDisc_latches (s : State) (n : Nat) (x : Disc) : (s.setDisc n x).latches = s.latches := rfl
@[simp] theorem State.setDisc_regions (s : State) (n : Nat) (x : Disc) : (s.setDisc n x).regions = s.regions := rfl
@[simp] theorem State.setDisc_bins (s : State) (n : Nat) (x : Disc) : (s.setDisc n x).bins = s.bins := rfl
@[simp] theorem State.setDisc_engines (s : State) (n : Nat) (x : Disc) : (s.setDisc n x).engines = s.engines := rfl
@[simp] theorem State.setDisc_arrays (s : State) (n : Nat) (x : Disc) : (s.setDisc n x).arrays = s.arrays := rfl
@[simp] theorem State.setDisc_walkers (s : State) (n : Nat) (x : Disc) : (s.setDisc n x).walkers = s.walkers := rfl
@[simp] theorem State.setDisc_ssm (s : State) (n : Nat) (x : Disc) : (s.setDisc n x).ssm = s.ssm := rfl
@[simp] theorem State.setDisc_ssmGroups (s : State) (n : Nat) (x : Disc) : (s.setDisc n x).ssmGroups = s.ssmGroups := rfl
@[simp] theorem State.setDisc_ssmHeld (s : State) (n : Nat) (x : Disc) : (s.setDisc n x).ssmHeld = s.ssmHeld := rfl
@[simp] theorem State.setDisc_flags (s : State) (n : Nat) (x : Disc) : (s.setDisc n x).flags = s.flags := rfl
@[simp] theorem State.setDisc_prc (s : State) (n : Nat) (x : Disc) : (s.setDisc n x).prc = s.prc := rfl
@[simp] theorem State.setDisc_remotes (s : State) (n : Nat) (x : Disc) : (s.setDisc n x).remotes = s.remotes := rfl
@[simp] theorem State.setDisc_diagShared (s : State) (n : Nat) (x : Disc) : (s.setDisc n x).diagShared = s.diagShared := rfl
@[simp] theorem State.setDisc_rcbs (s : State) (n : Nat) (x : Disc) : (s.setDisc n x).rcbs = s.rcbs := rfl
@[simp] theorem State.setDisc_rings (s : State) (n : Nat) (x : Disc) : (s.setDisc n x).rings = s.rings := rfl
@[simp] theorem State.setDisc_nodes (s : State) (n : Nat) (x : Disc) : (s.setDisc n x).nodes = s.nodes := rfl
@[simp] theorem State.setDisc_ready (s : State) (n : Nat) (x : Disc) : (s.setDisc n x).ready = s.ready := rfl
@[simp] theorem State.setDisc_crews (s : State) (n : Nat) (x : Disc) : (s.setDisc n x).crews = s.crews := rfl
@[simp] theorem State.setDisc_crewsEnded (s : State) (n : Nat) (x : Disc) : (s.setDisc n x).crewsEnded = s.crewsEnded := rfl
@[simp] theorem State.setDisc_insts (s : State) (n : Nat) (x : Disc) : (s.setDisc n x).insts = s.insts := rfl
@[simp] theorem State.setDisc_parts (s : State) (n : Nat) (x : Disc) : (s.setDisc n x).parts = s.parts := rfl
@[simp] theorem State.setDisc_keys (s : State) (n : Nat) (x : Disc) : (s.setDisc n x).keys = s.keys := rfl
@[simp] theorem State.setDisc_slices (s : State) (n : Nat) (x : Disc) : (s.setDisc n x).slices = s.slices := rfl
@[simp] theorem State.setDisc_saved (s : State) (n : Nat) (x : Disc) : (s.setDisc n x).saved = s.saved := rfl
@[simp] theorem State.setDisc_governor (s : State) (n : Nat) (x : Disc) : (s.setDisc n x).governor = s.governor := rfl
@[simp] theorem State.setDisc_mgmt (s : State) (n : Nat) (x : Disc) : (s.setDisc n x).mgmt = s.mgmt := rfl
@[simp] theorem State.setDisc_foano (s : State) (n : Nat) (x : Disc) : (s.setDisc n x).foano = s.foano := rfl
@[simp] theorem State.setDisc_routes (s : State) (n : Nat) (x : Disc) : (s.setDisc n x).routes = s.routes := rfl
@[simp] theorem State.setDisc_left (s : State) (n : Nat) (x : Disc) : (s.setDisc n x).left = s.left := rfl
@[simp] theorem State.setDisc_linksDown (s : State) (n : Nat) (x : Disc) : (s.setDisc n x).linksDown = s.linksDown := rfl
@[simp] theorem State.setDisc_drains (s : State) (n : Nat) (x : Disc) : (s.setDisc n x).drains = s.drains := rfl
@[simp] theorem State.setDisc_forced (s : State) (n : Nat) (x : Disc) : (s.setDisc n x).forced = s.forced := rfl
@[simp] theorem State.setDisc_tgsNext (s : State) (n : Nat) (x : Disc) : (s.setDisc n x).tgsNext = s.tgsNext := rfl
@[simp] theorem State.setDisc_tgsRound (s : State) (n : Nat) (x : Disc) : (s.setDisc n x).tgsRound = s.tgsRound := rfl
@[simp] theorem State.setDisc_stamp (s : State) (n : Nat) (x : Disc) : (s.setDisc n x).stamp = s.stamp := rfl
@[simp] theorem State.setDisc_hostLinkDown (s : State) (n : Nat) (x : Disc) : (s.setDisc n x).hostLinkDown = s.hostLinkDown := rfl
@[simp] theorem State.setDisc_written (s : State) (n : Nat) (x : Disc) : (s.setDisc n x).written = s.written := rfl
@[simp] theorem State.setDisc_fabric (s : State) (n : Nat) (x : Disc) : (s.setDisc n x).fabric = s.fabric := rfl
@[simp] theorem State.setDisc_errored (s : State) (n : Nat) (x : Disc) : (s.setDisc n x).errored = s.errored := rfl
@[simp] theorem State.setDisc_temps (s : State) (n : Nat) (x : Disc) : (s.setDisc n x).temps = s.temps := rfl
@[simp] theorem State.setDisc_siteDisc (s : State) (n : Nat) (x : Disc) : (s.setDisc n x).siteDisc n = x := NMap.get_set_self _ _ _ _
theorem State.setDisc_siteDisc_ne (s : State) (n : Nat) (x : Disc) (m : Nat) (h : m ≠ n) : (s.setDisc n x).siteDisc m = s.siteDisc m := NMap.get_set_ne _ _ _ h
@[simp] theorem State.front_turn (s : State) (ts : List Task) : (s.front ts).turn = s.turn := rfl
@[simp] theorem State.front_now (s : State) (ts : List Task) : (s.front ts).now = s.now := rfl
@[simp] theorem State.front_draws (s : State) (ts : List Task) : (s.front ts).draws = s.draws := rfl
@[simp] theorem State.front_inbox (s : State) (ts : List Task) : (s.front ts).inbox = s.inbox := rfl
@[simp] theorem State.front_population (s : State) (ts : List Task) : (s.front ts).population = s.population := rfl
@[simp] theorem State.front_cores (s : State) (ts : List Task) : (s.front ts).cores = s.cores := rfl
@[simp] theorem State.front_cycles (s : State) (ts : List Task) : (s.front ts).cycles = s.cycles := rfl
@[simp] theorem State.front_mem (s : State) (ts : List Task) : (s.front ts).mem = s.mem := rfl
@[simp] theorem State.front_poison (s : State) (ts : List Task) : (s.front ts).poison = s.poison := rfl
@[simp] theorem State.front_coded (s : State) (ts : List Task) : (s.front ts).coded = s.coded := rfl
@[simp] theorem State.front_bufs (s : State) (ts : List Task) : (s.front ts).bufs = s.bufs := rfl
@[simp] theorem State.front_pins (s : State) (ts : List Task) : (s.front ts).pins = s.pins := rfl
@[simp] theorem State.front_freedBids (s : State) (ts : List Task) : (s.front ts).freedBids = s.freedBids := rfl
@[simp] theorem State.front_extUsed (s : State) (ts : List Task) : (s.front ts).extUsed = s.extUsed := rfl
@[simp] theorem State.front_exts (s : State) (ts : List Task) : (s.front ts).exts = s.exts := rfl
@[simp] theorem State.front_tier2 (s : State) (ts : List Task) : (s.front ts).tier2 = s.tier2 := rfl
@[simp] theorem State.front_ranges (s : State) (ts : List Task) : (s.front ts).ranges = s.ranges := rfl
@[simp] theorem State.front_reclaims (s : State) (ts : List Task) : (s.front ts).reclaims = s.reclaims := rfl
@[simp] theorem State.front_latches (s : State) (ts : List Task) : (s.front ts).latches = s.latches := rfl
@[simp] theorem State.front_regions (s : State) (ts : List Task) : (s.front ts).regions = s.regions := rfl
@[simp] theorem State.front_bins (s : State) (ts : List Task) : (s.front ts).bins = s.bins := rfl
@[simp] theorem State.front_engines (s : State) (ts : List Task) : (s.front ts).engines = s.engines := rfl
@[simp] theorem State.front_arrays (s : State) (ts : List Task) : (s.front ts).arrays = s.arrays := rfl
@[simp] theorem State.front_walkers (s : State) (ts : List Task) : (s.front ts).walkers = s.walkers := rfl
@[simp] theorem State.front_ssm (s : State) (ts : List Task) : (s.front ts).ssm = s.ssm := rfl
@[simp] theorem State.front_ssmGroups (s : State) (ts : List Task) : (s.front ts).ssmGroups = s.ssmGroups := rfl
@[simp] theorem State.front_ssmHeld (s : State) (ts : List Task) : (s.front ts).ssmHeld = s.ssmHeld := rfl
@[simp] theorem State.front_flags (s : State) (ts : List Task) : (s.front ts).flags = s.flags := rfl
@[simp] theorem State.front_prc (s : State) (ts : List Task) : (s.front ts).prc = s.prc := rfl
@[simp] theorem State.front_remotes (s : State) (ts : List Task) : (s.front ts).remotes = s.remotes := rfl
@[simp] theorem State.front_diagShared (s : State) (ts : List Task) : (s.front ts).diagShared = s.diagShared := rfl
@[simp] theorem State.front_rcbs (s : State) (ts : List Task) : (s.front ts).rcbs = s.rcbs := rfl
@[simp] theorem State.front_rings (s : State) (ts : List Task) : (s.front ts).rings = s.rings := rfl
@[simp] theorem State.front_nodes (s : State) (ts : List Task) : (s.front ts).nodes = s.nodes := rfl
@[simp] theorem State.front_ready (s : State) (ts : List Task) : (s.front ts).ready = s.ready := rfl
@[simp] theorem State.front_crews (s : State) (ts : List Task) : (s.front ts).crews = s.crews := rfl
@[simp] theorem State.front_crewsEnded (s : State) (ts : List Task) : (s.front ts).crewsEnded = s.crewsEnded := rfl
@[simp] theorem State.front_insts (s : State) (ts : List Task) : (s.front ts).insts = s.insts := rfl
@[simp] theorem State.front_parts (s : State) (ts : List Task) : (s.front ts).parts = s.parts := rfl
@[simp] theorem State.front_disc (s : State) (ts : List Task) : (s.front ts).disc = s.disc := rfl
@[simp] theorem State.front_keys (s : State) (ts : List Task) : (s.front ts).keys = s.keys := rfl
@[simp] theorem State.front_slices (s : State) (ts : List Task) : (s.front ts).slices = s.slices := rfl
@[simp] theorem State.front_saved (s : State) (ts : List Task) : (s.front ts).saved = s.saved := rfl
@[simp] theorem State.front_governor (s : State) (ts : List Task) : (s.front ts).governor = s.governor := rfl
@[simp] theorem State.front_mgmt (s : State) (ts : List Task) : (s.front ts).mgmt = s.mgmt := rfl
@[simp] theorem State.front_foano (s : State) (ts : List Task) : (s.front ts).foano = s.foano := rfl
@[simp] theorem State.front_routes (s : State) (ts : List Task) : (s.front ts).routes = s.routes := rfl
@[simp] theorem State.front_left (s : State) (ts : List Task) : (s.front ts).left = s.left := rfl
@[simp] theorem State.front_linksDown (s : State) (ts : List Task) : (s.front ts).linksDown = s.linksDown := rfl
@[simp] theorem State.front_drains (s : State) (ts : List Task) : (s.front ts).drains = s.drains := rfl
@[simp] theorem State.front_forced (s : State) (ts : List Task) : (s.front ts).forced = s.forced := rfl
@[simp] theorem State.front_tgsNext (s : State) (ts : List Task) : (s.front ts).tgsNext = s.tgsNext := rfl
@[simp] theorem State.front_tgsRound (s : State) (ts : List Task) : (s.front ts).tgsRound = s.tgsRound := rfl
@[simp] theorem State.front_stamp (s : State) (ts : List Task) : (s.front ts).stamp = s.stamp := rfl
@[simp] theorem State.front_hostLinkDown (s : State) (ts : List Task) : (s.front ts).hostLinkDown = s.hostLinkDown := rfl
@[simp] theorem State.front_written (s : State) (ts : List Task) : (s.front ts).written = s.written := rfl
@[simp] theorem State.front_fabric (s : State) (ts : List Task) : (s.front ts).fabric = s.fabric := rfl
@[simp] theorem State.front_errored (s : State) (ts : List Task) : (s.front ts).errored = s.errored := rfl
@[simp] theorem State.front_temps (s : State) (ts : List Task) : (s.front ts).temps = s.temps := rfl
@[simp] theorem State.front_agenda (s : State) (ts : List Task) : (s.front ts).agenda = ts ++ s.agenda := rfl
theorem State.modCore_eq (s : State) (n : Nat) (f : Core → Core) : s.modCore n f = s.setCore n (f (s.core n)) := rfl
theorem State.modCtx_eq (s : State) (n : Nat) (f : Ctx → Ctx) :
    s.modCtx n f = s.setCore n { s.core n with ctx := f (s.core n).ctx } := rfl
@[simp] theorem State.modCore_core (s : State) (n : Nat) (f : Core → Core) : (s.modCore n f).core n = f (s.core n) :=
  NMap.get_set_self _ _ _ _
@[simp] theorem State.modCtx_core (s : State) (n : Nat) (f : Ctx → Ctx) :
    (s.modCtx n f).core n = { s.core n with ctx := f (s.core n).ctx } := NMap.get_set_self _ _ _ _

@[simp] theorem State.modCore_agenda (s : State) (n : Nat) (f : Core → Core) : (s.modCore n f).agenda = s.agenda := rfl
@[simp] theorem State.modCore_turn (s : State) (n : Nat) (f : Core → Core) : (s.modCore n f).turn = s.turn := rfl
@[simp] theorem State.modCore_now (s : State) (n : Nat) (f : Core → Core) : (s.modCore n f).now = s.now := rfl
@[simp] theorem State.modCore_draws (s : State) (n : Nat) (f : Core → Core) : (s.modCore n f).draws = s.draws := rfl
@[simp] theorem State.modCore_inbox (s : State) (n : Nat) (f : Core → Core) : (s.modCore n f).inbox = s.inbox := rfl
@[simp] theorem State.modCore_population (s : State) (n : Nat) (f : Core → Core) : (s.modCore n f).population = s.population := rfl
@[simp] theorem State.modCore_cycles (s : State) (n : Nat) (f : Core → Core) : (s.modCore n f).cycles = s.cycles := rfl
@[simp] theorem State.modCore_mem (s : State) (n : Nat) (f : Core → Core) : (s.modCore n f).mem = s.mem := rfl
@[simp] theorem State.modCore_poison (s : State) (n : Nat) (f : Core → Core) : (s.modCore n f).poison = s.poison := rfl
@[simp] theorem State.modCore_coded (s : State) (n : Nat) (f : Core → Core) : (s.modCore n f).coded = s.coded := rfl
@[simp] theorem State.modCore_bufs (s : State) (n : Nat) (f : Core → Core) : (s.modCore n f).bufs = s.bufs := rfl
@[simp] theorem State.modCore_pins (s : State) (n : Nat) (f : Core → Core) : (s.modCore n f).pins = s.pins := rfl
@[simp] theorem State.modCore_freedBids (s : State) (n : Nat) (f : Core → Core) : (s.modCore n f).freedBids = s.freedBids := rfl
@[simp] theorem State.modCore_extUsed (s : State) (n : Nat) (f : Core → Core) : (s.modCore n f).extUsed = s.extUsed := rfl
@[simp] theorem State.modCore_exts (s : State) (n : Nat) (f : Core → Core) : (s.modCore n f).exts = s.exts := rfl
@[simp] theorem State.modCore_tier2 (s : State) (n : Nat) (f : Core → Core) : (s.modCore n f).tier2 = s.tier2 := rfl
@[simp] theorem State.modCore_ranges (s : State) (n : Nat) (f : Core → Core) : (s.modCore n f).ranges = s.ranges := rfl
@[simp] theorem State.modCore_reclaims (s : State) (n : Nat) (f : Core → Core) : (s.modCore n f).reclaims = s.reclaims := rfl
@[simp] theorem State.modCore_latches (s : State) (n : Nat) (f : Core → Core) : (s.modCore n f).latches = s.latches := rfl
@[simp] theorem State.modCore_regions (s : State) (n : Nat) (f : Core → Core) : (s.modCore n f).regions = s.regions := rfl
@[simp] theorem State.modCore_bins (s : State) (n : Nat) (f : Core → Core) : (s.modCore n f).bins = s.bins := rfl
@[simp] theorem State.modCore_engines (s : State) (n : Nat) (f : Core → Core) : (s.modCore n f).engines = s.engines := rfl
@[simp] theorem State.modCore_arrays (s : State) (n : Nat) (f : Core → Core) : (s.modCore n f).arrays = s.arrays := rfl
@[simp] theorem State.modCore_walkers (s : State) (n : Nat) (f : Core → Core) : (s.modCore n f).walkers = s.walkers := rfl
@[simp] theorem State.modCore_ssm (s : State) (n : Nat) (f : Core → Core) : (s.modCore n f).ssm = s.ssm := rfl
@[simp] theorem State.modCore_ssmGroups (s : State) (n : Nat) (f : Core → Core) : (s.modCore n f).ssmGroups = s.ssmGroups := rfl
@[simp] theorem State.modCore_ssmHeld (s : State) (n : Nat) (f : Core → Core) : (s.modCore n f).ssmHeld = s.ssmHeld := rfl
@[simp] theorem State.modCore_flags (s : State) (n : Nat) (f : Core → Core) : (s.modCore n f).flags = s.flags := rfl
@[simp] theorem State.modCore_prc (s : State) (n : Nat) (f : Core → Core) : (s.modCore n f).prc = s.prc := rfl
@[simp] theorem State.modCore_remotes (s : State) (n : Nat) (f : Core → Core) : (s.modCore n f).remotes = s.remotes := rfl
@[simp] theorem State.modCore_diagShared (s : State) (n : Nat) (f : Core → Core) : (s.modCore n f).diagShared = s.diagShared := rfl
@[simp] theorem State.modCore_rcbs (s : State) (n : Nat) (f : Core → Core) : (s.modCore n f).rcbs = s.rcbs := rfl
@[simp] theorem State.modCore_rings (s : State) (n : Nat) (f : Core → Core) : (s.modCore n f).rings = s.rings := rfl
@[simp] theorem State.modCore_nodes (s : State) (n : Nat) (f : Core → Core) : (s.modCore n f).nodes = s.nodes := rfl
@[simp] theorem State.modCore_ready (s : State) (n : Nat) (f : Core → Core) : (s.modCore n f).ready = s.ready := rfl
@[simp] theorem State.modCore_crews (s : State) (n : Nat) (f : Core → Core) : (s.modCore n f).crews = s.crews := rfl
@[simp] theorem State.modCore_crewsEnded (s : State) (n : Nat) (f : Core → Core) : (s.modCore n f).crewsEnded = s.crewsEnded := rfl
@[simp] theorem State.modCore_insts (s : State) (n : Nat) (f : Core → Core) : (s.modCore n f).insts = s.insts := rfl
@[simp] theorem State.modCore_parts (s : State) (n : Nat) (f : Core → Core) : (s.modCore n f).parts = s.parts := rfl
@[simp] theorem State.modCore_disc (s : State) (n : Nat) (f : Core → Core) : (s.modCore n f).disc = s.disc := rfl
@[simp] theorem State.modCore_keys (s : State) (n : Nat) (f : Core → Core) : (s.modCore n f).keys = s.keys := rfl
@[simp] theorem State.modCore_slices (s : State) (n : Nat) (f : Core → Core) : (s.modCore n f).slices = s.slices := rfl
@[simp] theorem State.modCore_saved (s : State) (n : Nat) (f : Core → Core) : (s.modCore n f).saved = s.saved := rfl
@[simp] theorem State.modCore_governor (s : State) (n : Nat) (f : Core → Core) : (s.modCore n f).governor = s.governor := rfl
@[simp] theorem State.modCore_mgmt (s : State) (n : Nat) (f : Core → Core) : (s.modCore n f).mgmt = s.mgmt := rfl
@[simp] theorem State.modCore_foano (s : State) (n : Nat) (f : Core → Core) : (s.modCore n f).foano = s.foano := rfl
@[simp] theorem State.modCore_routes (s : State) (n : Nat) (f : Core → Core) : (s.modCore n f).routes = s.routes := rfl
@[simp] theorem State.modCore_left (s : State) (n : Nat) (f : Core → Core) : (s.modCore n f).left = s.left := rfl
@[simp] theorem State.modCore_linksDown (s : State) (n : Nat) (f : Core → Core) : (s.modCore n f).linksDown = s.linksDown := rfl
@[simp] theorem State.modCore_drains (s : State) (n : Nat) (f : Core → Core) : (s.modCore n f).drains = s.drains := rfl
@[simp] theorem State.modCore_forced (s : State) (n : Nat) (f : Core → Core) : (s.modCore n f).forced = s.forced := rfl
@[simp] theorem State.modCore_tgsNext (s : State) (n : Nat) (f : Core → Core) : (s.modCore n f).tgsNext = s.tgsNext := rfl
@[simp] theorem State.modCore_tgsRound (s : State) (n : Nat) (f : Core → Core) : (s.modCore n f).tgsRound = s.tgsRound := rfl
@[simp] theorem State.modCore_stamp (s : State) (n : Nat) (f : Core → Core) : (s.modCore n f).stamp = s.stamp := rfl
@[simp] theorem State.modCore_hostLinkDown (s : State) (n : Nat) (f : Core → Core) : (s.modCore n f).hostLinkDown = s.hostLinkDown := rfl
@[simp] theorem State.modCore_written (s : State) (n : Nat) (f : Core → Core) : (s.modCore n f).written = s.written := rfl
@[simp] theorem State.modCore_fabric (s : State) (n : Nat) (f : Core → Core) : (s.modCore n f).fabric = s.fabric := rfl
@[simp] theorem State.modCore_errored (s : State) (n : Nat) (f : Core → Core) : (s.modCore n f).errored = s.errored := rfl
@[simp] theorem State.modCore_temps (s : State) (n : Nat) (f : Core → Core) : (s.modCore n f).temps = s.temps := rfl
@[simp] theorem State.modCtx_agenda (s : State) (n : Nat) (f : Ctx → Ctx) : (s.modCtx n f).agenda = s.agenda := rfl
@[simp] theorem State.modCtx_turn (s : State) (n : Nat) (f : Ctx → Ctx) : (s.modCtx n f).turn = s.turn := rfl
@[simp] theorem State.modCtx_now (s : State) (n : Nat) (f : Ctx → Ctx) : (s.modCtx n f).now = s.now := rfl
@[simp] theorem State.modCtx_draws (s : State) (n : Nat) (f : Ctx → Ctx) : (s.modCtx n f).draws = s.draws := rfl
@[simp] theorem State.modCtx_inbox (s : State) (n : Nat) (f : Ctx → Ctx) : (s.modCtx n f).inbox = s.inbox := rfl
@[simp] theorem State.modCtx_population (s : State) (n : Nat) (f : Ctx → Ctx) : (s.modCtx n f).population = s.population := rfl
@[simp] theorem State.modCtx_cycles (s : State) (n : Nat) (f : Ctx → Ctx) : (s.modCtx n f).cycles = s.cycles := rfl
@[simp] theorem State.modCtx_mem (s : State) (n : Nat) (f : Ctx → Ctx) : (s.modCtx n f).mem = s.mem := rfl
@[simp] theorem State.modCtx_poison (s : State) (n : Nat) (f : Ctx → Ctx) : (s.modCtx n f).poison = s.poison := rfl
@[simp] theorem State.modCtx_coded (s : State) (n : Nat) (f : Ctx → Ctx) : (s.modCtx n f).coded = s.coded := rfl
@[simp] theorem State.modCtx_bufs (s : State) (n : Nat) (f : Ctx → Ctx) : (s.modCtx n f).bufs = s.bufs := rfl
@[simp] theorem State.modCtx_pins (s : State) (n : Nat) (f : Ctx → Ctx) : (s.modCtx n f).pins = s.pins := rfl
@[simp] theorem State.modCtx_freedBids (s : State) (n : Nat) (f : Ctx → Ctx) : (s.modCtx n f).freedBids = s.freedBids := rfl
@[simp] theorem State.modCtx_extUsed (s : State) (n : Nat) (f : Ctx → Ctx) : (s.modCtx n f).extUsed = s.extUsed := rfl
@[simp] theorem State.modCtx_exts (s : State) (n : Nat) (f : Ctx → Ctx) : (s.modCtx n f).exts = s.exts := rfl
@[simp] theorem State.modCtx_tier2 (s : State) (n : Nat) (f : Ctx → Ctx) : (s.modCtx n f).tier2 = s.tier2 := rfl
@[simp] theorem State.modCtx_ranges (s : State) (n : Nat) (f : Ctx → Ctx) : (s.modCtx n f).ranges = s.ranges := rfl
@[simp] theorem State.modCtx_reclaims (s : State) (n : Nat) (f : Ctx → Ctx) : (s.modCtx n f).reclaims = s.reclaims := rfl
@[simp] theorem State.modCtx_latches (s : State) (n : Nat) (f : Ctx → Ctx) : (s.modCtx n f).latches = s.latches := rfl
@[simp] theorem State.modCtx_regions (s : State) (n : Nat) (f : Ctx → Ctx) : (s.modCtx n f).regions = s.regions := rfl
@[simp] theorem State.modCtx_bins (s : State) (n : Nat) (f : Ctx → Ctx) : (s.modCtx n f).bins = s.bins := rfl
@[simp] theorem State.modCtx_engines (s : State) (n : Nat) (f : Ctx → Ctx) : (s.modCtx n f).engines = s.engines := rfl
@[simp] theorem State.modCtx_arrays (s : State) (n : Nat) (f : Ctx → Ctx) : (s.modCtx n f).arrays = s.arrays := rfl
@[simp] theorem State.modCtx_walkers (s : State) (n : Nat) (f : Ctx → Ctx) : (s.modCtx n f).walkers = s.walkers := rfl
@[simp] theorem State.modCtx_ssm (s : State) (n : Nat) (f : Ctx → Ctx) : (s.modCtx n f).ssm = s.ssm := rfl
@[simp] theorem State.modCtx_ssmGroups (s : State) (n : Nat) (f : Ctx → Ctx) : (s.modCtx n f).ssmGroups = s.ssmGroups := rfl
@[simp] theorem State.modCtx_ssmHeld (s : State) (n : Nat) (f : Ctx → Ctx) : (s.modCtx n f).ssmHeld = s.ssmHeld := rfl
@[simp] theorem State.modCtx_flags (s : State) (n : Nat) (f : Ctx → Ctx) : (s.modCtx n f).flags = s.flags := rfl
@[simp] theorem State.modCtx_prc (s : State) (n : Nat) (f : Ctx → Ctx) : (s.modCtx n f).prc = s.prc := rfl
@[simp] theorem State.modCtx_remotes (s : State) (n : Nat) (f : Ctx → Ctx) : (s.modCtx n f).remotes = s.remotes := rfl
@[simp] theorem State.modCtx_diagShared (s : State) (n : Nat) (f : Ctx → Ctx) : (s.modCtx n f).diagShared = s.diagShared := rfl
@[simp] theorem State.modCtx_rcbs (s : State) (n : Nat) (f : Ctx → Ctx) : (s.modCtx n f).rcbs = s.rcbs := rfl
@[simp] theorem State.modCtx_rings (s : State) (n : Nat) (f : Ctx → Ctx) : (s.modCtx n f).rings = s.rings := rfl
@[simp] theorem State.modCtx_nodes (s : State) (n : Nat) (f : Ctx → Ctx) : (s.modCtx n f).nodes = s.nodes := rfl
@[simp] theorem State.modCtx_ready (s : State) (n : Nat) (f : Ctx → Ctx) : (s.modCtx n f).ready = s.ready := rfl
@[simp] theorem State.modCtx_crews (s : State) (n : Nat) (f : Ctx → Ctx) : (s.modCtx n f).crews = s.crews := rfl
@[simp] theorem State.modCtx_crewsEnded (s : State) (n : Nat) (f : Ctx → Ctx) : (s.modCtx n f).crewsEnded = s.crewsEnded := rfl
@[simp] theorem State.modCtx_insts (s : State) (n : Nat) (f : Ctx → Ctx) : (s.modCtx n f).insts = s.insts := rfl
@[simp] theorem State.modCtx_parts (s : State) (n : Nat) (f : Ctx → Ctx) : (s.modCtx n f).parts = s.parts := rfl
@[simp] theorem State.modCtx_disc (s : State) (n : Nat) (f : Ctx → Ctx) : (s.modCtx n f).disc = s.disc := rfl
@[simp] theorem State.modCtx_keys (s : State) (n : Nat) (f : Ctx → Ctx) : (s.modCtx n f).keys = s.keys := rfl
@[simp] theorem State.modCtx_slices (s : State) (n : Nat) (f : Ctx → Ctx) : (s.modCtx n f).slices = s.slices := rfl
@[simp] theorem State.modCtx_saved (s : State) (n : Nat) (f : Ctx → Ctx) : (s.modCtx n f).saved = s.saved := rfl
@[simp] theorem State.modCtx_governor (s : State) (n : Nat) (f : Ctx → Ctx) : (s.modCtx n f).governor = s.governor := rfl
@[simp] theorem State.modCtx_mgmt (s : State) (n : Nat) (f : Ctx → Ctx) : (s.modCtx n f).mgmt = s.mgmt := rfl
@[simp] theorem State.modCtx_foano (s : State) (n : Nat) (f : Ctx → Ctx) : (s.modCtx n f).foano = s.foano := rfl
@[simp] theorem State.modCtx_routes (s : State) (n : Nat) (f : Ctx → Ctx) : (s.modCtx n f).routes = s.routes := rfl
@[simp] theorem State.modCtx_left (s : State) (n : Nat) (f : Ctx → Ctx) : (s.modCtx n f).left = s.left := rfl
@[simp] theorem State.modCtx_linksDown (s : State) (n : Nat) (f : Ctx → Ctx) : (s.modCtx n f).linksDown = s.linksDown := rfl
@[simp] theorem State.modCtx_drains (s : State) (n : Nat) (f : Ctx → Ctx) : (s.modCtx n f).drains = s.drains := rfl
@[simp] theorem State.modCtx_forced (s : State) (n : Nat) (f : Ctx → Ctx) : (s.modCtx n f).forced = s.forced := rfl
@[simp] theorem State.modCtx_tgsNext (s : State) (n : Nat) (f : Ctx → Ctx) : (s.modCtx n f).tgsNext = s.tgsNext := rfl
@[simp] theorem State.modCtx_tgsRound (s : State) (n : Nat) (f : Ctx → Ctx) : (s.modCtx n f).tgsRound = s.tgsRound := rfl
@[simp] theorem State.modCtx_stamp (s : State) (n : Nat) (f : Ctx → Ctx) : (s.modCtx n f).stamp = s.stamp := rfl
@[simp] theorem State.modCtx_hostLinkDown (s : State) (n : Nat) (f : Ctx → Ctx) : (s.modCtx n f).hostLinkDown = s.hostLinkDown := rfl
@[simp] theorem State.modCtx_written (s : State) (n : Nat) (f : Ctx → Ctx) : (s.modCtx n f).written = s.written := rfl
@[simp] theorem State.modCtx_fabric (s : State) (n : Nat) (f : Ctx → Ctx) : (s.modCtx n f).fabric = s.fabric := rfl
@[simp] theorem State.modCtx_errored (s : State) (n : Nat) (f : Ctx → Ctx) : (s.modCtx n f).errored = s.errored := rfl
@[simp] theorem State.modCtx_temps (s : State) (n : Nat) (f : Ctx → Ctx) : (s.modCtx n f).temps = s.temps := rfl

end Sys2Proof.Machine
end

