-- ==== Sys2Proof/Safety.lean ====
section
/-! DEFINITION. What the claims call safe: the invariants of the package and runs of steps. -/

namespace Sys2Proof

open Machine

/-- The memory is in its canonical form: addresses strictly rising and no byte listed that an unlisted address reads as. -/
def Safety.MemSound (s : State) : Prop := Memory.wf s.mem = true

/-- A step that ends the run does so only because R424 has shut the package down. -/
def Safety.StopsOnlyOff (s : State) : Prop := ∀ f, step s = .fault f → s.hostLinkDown = true

/-- No step refuses. -/
def Safety.NeverRefuses (s : State) : Prop := ∀ r, step s ≠ .refused r

/-- The state after n steps, while they answer next states. -/
def Safety.after (n : Nat) (s : State) : Option State :=
  match n with
  | 0 => some s
  | k + 1 =>
    match step s with
    | .next t => Safety.after k t
    | _ => none

end Sys2Proof
end

