-- ==== Sys2Proof/Certificates/Slice0/Obligations.lean ====
section
/-! DEFINITION. The statements for the provers. -/

namespace Claims

open Sys2Proof Sys2Proof.Machine

/-- The operation that the turn's core puts in flight: it is numbered next, and lat unfrozen clocks from now it writes its ports,
with the conditions that it raised, those that trap, and the lowest element that raised one. -/
def flight (s : State) (fu : FU) (lat : Nat) (writes : List (Nat × ResVal)) (raised enabled : BitVec 5) (lowest : Nat) (macC : Bool) :
    InFlight :=
  let c := s.core s.turn.core
  { fu := fu, due := c.age + lat, seq := c.ctx.seq + 1, writes := writes, raised := raised, enabled := enabled, lowest := lowest,
    bidx := s.turn.bidx, slot := s.turn.slot, macC := macC }

/-- The state with the turn's core replaced and nothing else changed. -/
def withCore (s : State) (c : Core) : State := { s with cores := s.cores.set s.turn.core c }

/-- The state with the context of the turn's strand replaced and nothing else changed. -/
def withCtx (s : State) (x : Ctx) : State := withCore s { s.core s.turn.core with ctx := x }

/-- An operation put in flight and nothing else changed. -/
def startedFp (s : State) (fu : FU) (lat : Nat) (writes : List (Nat × ResVal)) (raised enabled : BitVec 5) (lowest : Nat) (macC : Bool) :
    State :=
  let c := s.core s.turn.core
  let f := flight s fu lat writes raised enabled lowest macC
  withCore s { c with ctx := { c.ctx with seq := c.ctx.seq + 1 }, inflight := c.inflight ++ [f] }

/-- As startedFp, for an operation that raises nothing. -/
def started (s : State) (fu : FU) (lat : Nat) (writes : List (Nat × ResVal)) : State := startedFp s fu lat writes 0 0 0 false

/-- A word into port D, or a bit into port F. -/
def toD (w : Word) : List (Nat × ResVal) := [(0, .s w)]
def toF (b : Bool) : List (Nat × ResVal) := [(1, .s (if b then 1 else 0))]

/-- The checks of a triggered operation have passed: made by its bundle, or passing now. -/
def Passes (i : Instr) (s : State) : Prop := s.turn.checked = true ∨ checkOp i s = .ok

/-- A vector operation put in flight and nothing else changed: what it writes and the conditions of its result positions in order, with
the trap enables of VCTL. -/
def vecDone (s : State) (fu : FU) (lat : Nat) (writes : List (Nat × ResVal)) (conds : List Flags) (macC : Bool) : State :=
  let ten := (vecIn s.turn.ops).ten
  startedFp s fu lat writes (orFlags conds) ten (lowestRaised ten 0 conds) macC

/-- The element-wise pattern of R181: element q of D is f q where it is selected and A's otherwise. -/
def tileDone (s : State) (fu : FU) (lat w : Nat) (f : Nat → Nat × Flags) (macC : Bool) : State :=
  let v := vecIn s.turn.ops
  let r := (List.range v.n).map (fun q => if v.sel q then f q else (elem v.a w q, 0))
  vecDone s fu lat [(0, .v (tileOf w (r.map (fun p => p.1))))] (r.map (fun p => p.2)) macC

/-- The latency of a vector operation on the class of the turn's core: six clocks more than on VEC (R182). -/
def vlat (s : State) (base : Nat) : Nat := if s.coreCls s.turn.core = .vec then base else base + 6

/-- The bits of a system register that software reads and writes (R149 and the descriptions it names), for the registers that have no
other kind of bit. -/
def rwMask (n : Nat) : Option Word :=
  match n with
  | 0x000 => some 0x1FFF
  | 0x001 => some 0x3FFFFF
  | 0x002 => some 0x7FF7
  | 0x010 => some 0xFFFFFFFF
  | 0x011 => some 0x7
  | 0x012 => some 0x7F
  | 0x013 => some 0x1FFF
  | 0x020 => some 0x1FFF
  | _ => none

/-- The system registers that a write does not change (Access RO and HW), and the numbers that R149 does not list. -/
def readOnly (n : Nat) : Prop :=
  rwMask n = none ∧ n ∉ [0x003, 0x004, 0x025, 0x055, 0x060, 0x061, 0x062, 0x063]

/-- A context with nothing changed but system registers, long operations and result windows. -/
def SystemOnly (x y : Ctx) : Prop :=
  y = { x with
    swin := y.swin, vshape := y.vshape, vconf := y.vconf, vctl := y.vctl, vflags := y.vflags, vxuLong := y.vxuLong, vlsLong := y.vlsLong,
    lc := y.lc, esc := y.esc, rrb := y.rrb, lhead := y.lhead, tvec := y.tvec, tret := y.tret, tout := y.tout, tags := y.tags,
    xbase := y.xbase, lacDirty := y.lacDirty }

/-- Two states that differ in the context of one core only. -/
def CtxOnly (n : Nat) (s t : State) : Prop :=
  t = { s with cores := t.cores } ∧ (∀ m, m ≠ n → t.core m = s.core m) ∧
    ∃ y, t.core n = { s.core n with ctx := y }

/-- The entry that the turn's engine runs, with its checks made or passing now. -/
def Ready (chk : State → QEnt → Option EngErr) (s : State) (a : Act) : Prop :=
  s.active s.turn.engine = some a ∧ (a.checked = true ∨ chk s a.ent = none)

/-- A read of n bytes at an address finds no poison, no lost extent and no fenced MEM. -/
def Readable (s : State) (a n : Nat) : Prop := s.bufPoisoned a n = false

/-- A write of n bytes at an address need not wait and reaches a MEM that serves it. -/
def Writable (s : State) (a n : Nat) : Prop :=
  s.writeWaits a n = false ∧
    ∀ g, g ∈ granules a n → (s.ext (s.extAt (g * 64))).st ≠ .lost ∧ s.memServes (extMem (s.extAt (g * 64))) = true

/-- The entry of the turn's engine goes on from a progress index, or it has run and its completion is the next step. -/
def Moved (s t : State) (p : Nat) (last : Bool) : Prop :=
  ∃ c d, (s.eng s.turn.engine).cur = some c ∧ t.eng s.turn.engine = { s.eng s.turn.engine with cur := some d } ∧
    d.act.ent = c.act.ent ∧
    (last = true → d.done = true ∧ t.agenda = .run (Turn.forEntry s.turn.engine c.main.ent) .tagCompletion :: s.agenda) ∧
    (last = false → d.act.prog = p ∧ d.done = c.done ∧ t.agenda = s.agenda)

/-- Nothing changes but the turn's engine, the agenda, and memory with its poison, its coded lines, its extents' last accesses and the note of
the bytes of buffers that have been written. -/
def EngineOnly (s t : State) : Prop :=
  t = { s with
    engines := t.engines, agenda := t.agenda, mem := t.mem, poison := t.poison, coded := t.coded, exts := t.exts, written := t.written } ∧
    ∀ j, j ≠ s.turn.engine → t.eng j = s.eng j

/-- Memory holds the bytes from an address upward and is otherwise as before. -/
def Holds (s t : State) (a : Nat) (bs : List Byte) : Prop :=
  Memory.readN t.mem a bs.length = bs ∧ ∀ x, x < a ∨ a + bs.length ≤ x → Memory.read t.mem x = Memory.read s.mem x

/-- The entry belongs to a crew that stands, and is no launch packet. -/
def Live (s : State) (q : QEnt) : Prop := q.pkt = none ∧ (s.crews.find q.crew).isSome = true

/-- The entry of the turn's engine stops: its partition's entries freeze there, memory stays and the fault comes next (R61). -/
def EntryStops (s t : State) (code estat : Nat) : Prop :=
  (t.eng s.turn.engine).cur = none ∧ t.mem = s.mem ∧
    ∃ u f, t.agenda = .run u .fault :: s.agenda ∧ u.fault = some f ∧ f.code = code ∧ f.estat = estat ∧ f.src = 1

/-- The meaning of an instruction is one next state. -/
def Gives (i : Instr) (s t : State) : Prop := exec i s = .next t

/-- The place that a write of a bundle goes to: a trigger writes port A, and a name of a vector register the physical one. -/
def writePlace (w : BWrite) : Nat × Nat :=
  match w.dst with
  | .srf r => (0, r.toNat)
  | .prf r => (1, r.toNat)
  | .mrf r => (2, r.toNat)
  | .crf r => (3, r.toNat)
  | .vrf _ => (4, w.phys)
  | .port fu p => (5, fu.id * 8 + p.toNat)
  | .trig fu _ => (5, fu.id * 8)

/-- The registers and ports after a list of writes: each holds what was written to it, and one that no write names is as before. The predicates
stand for themselves, since a loop-end step may follow. -/
def Written (ws : List BWrite) (x y : Ctx) (q : BitVec 16) : Prop :=
  let spared : Nat → Nat → Prop := fun k r => (k, r) ∉ ws.map writePlace
  let port : FU → Nat → MVal → Prop := fun fu p v =>
    (portKind fu p = some .s → y.sport.get (fu.id * 8 + p) 0 = v.scalar) ∧
    (portKind fu p = some .v → y.vport.get (fu.id * 8 + p) 0 = v.vector) ∧
    (portKind fu p = some .k → y.kport.get (fu.id * 8 + p) 0 = v.handle)
  (∀ w, w ∈ ws → match w.dst with
    | .srf r => y.srf.get r.toNat 0 = w.val.scalar
    | .prf r => q.getLsbD r.toNat = w.val.scalar.getLsbD 0
    | .mrf r => y.mrf.get r.toNat 0 = w.val.vector.setWidth 1024
    | .crf r => y.crf.get r.toNat 0 = w.val.handle
    | .vrf _ => y.vrf.get w.phys 0 = w.val.vector ∧ (w.phys < 128 → y.dirty.getLsbD w.phys = true)
    | .port fu p => port fu p.toNat w.val
    | .trig fu _ => port fu 0 w.val) ∧
  (∀ r, spared 0 r → y.srf.get r 0 = x.srf.get r 0) ∧ (∀ r, spared 1 r → q.getLsbD r = x.prf.getLsbD r) ∧
  (∀ r, spared 2 r → y.mrf.get r 0 = x.mrf.get r 0) ∧ (∀ r, spared 3 r → y.crf.get r 0 = x.crf.get r 0) ∧
  (∀ r, spared 4 r → y.vrf.get r 0 = x.vrf.get r 0 ∧ y.dirty.getLsbD r = x.dirty.getLsbD r) ∧
  (∀ k, spared 5 k → y.sport.get k 0 = x.sport.get k 0 ∧ y.vport.get k 0 = x.vport.get k 0 ∧ y.kport.get k 0 = x.kport.get k 0)

/-- The loop-end step (R167) on a context whose predicates are q, and the pc after the bundle at an index. -/
def LoopStep (loopEnd : Bool) (bidx : Word) (x y : Ctx) (q : BitVec 16) : Prop :=
  (loopEnd = false → y.prf = q ∧ y.pc = bidx + 1 ∧ y.lc = x.lc ∧ y.esc = x.esc ∧ y.rrb = x.rrb) ∧
  (loopEnd = true →
    (∀ k, k < 8 → y.prf.getLsbD k = q.getLsbD k) ∧ (∀ k, 9 ≤ k → k < 16 → y.prf.getLsbD k = q.getLsbD (k - 1)) ∧
    y.prf.getLsbD 8 = decide (0 < x.lc.toNat) ∧
    y.lc = (if 0 < x.lc.toNat then x.lc - 1 else x.lc) ∧
    y.esc = (if x.lc.toNat = 0 ∧ 0 < x.esc.toNat then x.esc - 1 else x.esc) ∧
    (y.rrb.toNat : Int) = (if x.rs = 0 then 0 else ((x.rrb.toNat : Int) - 1) % (x.rs : Int)) ∧
    y.pc = (if 0 < x.lc.toNat ∨ 0 < x.esc.toNat then x.lhead.setWidth 64 else bidx + 1))

/-- The held bundle of a core takes effect between two states: its writes are made together, its pc moves on, and each operation that it
triggers beside the one that held it runs next with its ports as the bundle left them, or waits for its later clock. Nothing else of the
core's registers and ports changes. -/
def HeldEffect (s t : State) (n : Nat) (h : Hold) : Prop :=
  let x := (s.core n).ctx
  let y := (t.core n).ctx
  (h.writes.map writePlace).Nodup →
  (∃ q, Written h.writes x y q ∧ LoopStep h.bundle.loopEnd h.bidx x y q) ∧
  y = { x with
    srf := y.srf, prf := y.prf, crf := y.crf, vrf := y.vrf, mrf := y.mrf, dirty := y.dirty, sport := y.sport, vport := y.vport,
    kport := y.kport, pc := y.pc, lc := y.lc, esc := y.esc, rrb := y.rrb, swin := y.swin, kwin := y.kwin, seq := y.seq, tout := y.tout } ∧
  (∀ u i, Task.run u i ∈ t.agenda → Task.run u i ∈ s.agenda ∨ (u.core = n ∧ i = .longOpComplete) ∨
    (u.core = n ∧ u.bidx = h.bidx ∧ u.checked = true ∧ ∃ g, g ∈ h.trigs ∧ trigInstr g u.ops = some i)) ∧
  (∀ g, g ∈ h.trigs →
    (∀ k, actTime g = .now k → opOf g.fu g.opc.toNat ≠ none → ∃ u i, Task.run u i ∈ t.agenda ∧ trigInstr g u.ops = some i ∧ u.core = n ∧
      u.checked = true ∧ u.bidx = h.bidx ∧ ∀ w, w ∈ h.writes → w.dst = .trig g.fu g.opc →
        (portKind g.fu 0 = some .s → u.ops.a = w.val.scalar) ∧ (portKind g.fu 0 = some .v → u.ops.va = w.val.vector)) ∧
    (∀ k, actTime g = .later k → ∃ d, d ∈ (t.core n).deferred ∧ d.fu = g.fu ∧ d.opc = g.opc ∧ d.due = (s.core n).age + k) ∧
    (actTime g = .late → ∃ d, d ∈ (t.core n).deferred ∧ d.fu = g.fu ∧ d.opc = g.opc ∧ d.due = (s.core n).age ∧ d.late = true))

end Claims

open Sys2Proof Sys2Proof.Machine Claims
/-- R160, R161: the integer operations of ALA and ALB. Each writes its port, D or F, with latency 1, and changes nothing else. -/
def Claims.IntegerWords : Prop := ∀ (u : AluUnit) (s : State),
  let a := s.turn.ops.a
  let b := s.turn.ops.b
  let n := b.toNat % 256
  let lo : Word → BitVec 32 := fun x => x.setWidth 32
  let d : Word → State := fun w => started s u.fu 1 (toD w)
  let f : Bool → State := fun c => started s u.fu 1 (toF c)
  Gives (.add u) s (d (a + b)) ∧ Gives (.sub u) s (d (a - b)) ∧
  Gives (.addw u) s (d ((lo a + lo b).signExtend 64)) ∧ Gives (.subw u) s (d ((lo a - lo b).signExtend 64)) ∧
  Gives (.and u) s (d (a &&& b)) ∧ Gives (.or u) s (d (a ||| b)) ∧ Gives (.xor u) s (d (a ^^^ b)) ∧ Gives (.andn u) s (d (a &&& ~~~b)) ∧
  Gives (.shl u) s (d (a <<< n)) ∧ Gives (.shr u) s (d (a >>> n)) ∧ Gives (.sra u) s (d (a.sshiftRight n)) ∧
  Gives (.shlw u) s (d ((lo a <<< n).signExtend 64)) ∧ Gives (.shrw u) s (d ((lo a >>> n).signExtend 64)) ∧
  Gives (.sraw u) s (d (((lo a).sshiftRight n).signExtend 64)) ∧
  Gives (.rol u) s (d (a.rotateLeft (n % 64))) ∧ Gives (.ror u) s (d (a.rotateRight (n % 64))) ∧
  Gives (.eq u) s (f (a == b)) ∧ Gives (.ne u) s (f (a != b)) ∧ Gives (.lt u) s (f (a.slt b)) ∧ Gives (.ltu u) s (f (a.ult b)) ∧
  Gives (.le u) s (f (a.sle b)) ∧ Gives (.leu u) s (f (a.ule b)) ∧
  Gives (.min u) s (d (if b.slt a then b else a)) ∧ Gives (.minu u) s (d (if b.ult a then b else a)) ∧
  Gives (.max u) s (d (if a.slt b then b else a)) ∧ Gives (.maxu u) s (d (if a.ult b then b else a)) ∧
  Gives (.sel u) s (d (if s.turn.ops.p.getLsbD 0 then a else b)) ∧ Gives (.pass u) s (d a) ∧
  Gives (.sext8 u) s (d ((a.setWidth 8).signExtend 64)) ∧ Gives (.sext16 u) s (d ((a.setWidth 16).signExtend 64)) ∧
  Gives (.sext32 u) s (d ((a.setWidth 32).signExtend 64)) ∧ Gives (.zext8 u) s (d ((a.setWidth 8).setWidth 64)) ∧
  Gives (.zext16 u) s (d ((a.setWidth 16).setWidth 64)) ∧ Gives (.zext32 u) s (d ((a.setWidth 32).setWidth 64))

/-- R160, R161: the operations on bits and fields. CLZ and CTZ give 64 for 0 and otherwise the place of the highest or lowest set bit;
POPC counts bits; BREV and BSWAP reverse bits and bytes; EXTR and INS move the field that the descriptor in B names. -/
def Claims.IntegerBits : Prop := ∀ (u : AluUnit) (s : State),
  let a := s.turn.ops.a
  let b := s.turn.ops.b
  let pos := b.toNat % 64
  let len := b.toNat / 64 % 64 + 1
  (∃ r : Word, Gives (.clz u) s (started s u.fu 1 (toD r)) ∧ (a = 0 → r = 64) ∧
    (a ≠ 0 → r.toNat < 64 ∧ a.getLsbD (63 - r.toNat) = true ∧ ∀ k, 63 - r.toNat < k → a.getLsbD k = false)) ∧
  (∃ r : Word, Gives (.ctz u) s (started s u.fu 1 (toD r)) ∧ (a = 0 → r = 64) ∧
    (a ≠ 0 → r.toNat < 64 ∧ a.getLsbD r.toNat = true ∧ ∀ k, k < r.toNat → a.getLsbD k = false)) ∧
  (∃ r : Word, Gives (.popc u) s (started s u.fu 1 (toD r)) ∧ r.toNat = ((List.range 64).filter (fun k => a.getLsbD k)).length) ∧
  (∃ r : Word, Gives (.brev u) s (started s u.fu 1 (toD r)) ∧ ∀ k, k < 64 → r.getLsbD k = a.getLsbD (63 - k)) ∧
  (∃ r : Word, Gives (.bswap u) s (started s u.fu 1 (toD r)) ∧
    ∀ k j, k < 8 → j < 8 → r.getLsbD (8 * k + j) = a.getLsbD (8 * (7 - k) + j)) ∧
  (∃ r : Word, Gives (.extr u) s (started s u.fu 1 (toD r)) ∧ ∀ k, k < 64 → r.getLsbD k = (decide (k < len) && a.getLsbD (pos + k))) ∧
  (∃ r : Word, Gives (.ins u) s (started s u.fu 1 (toD r)) ∧ ∀ k, k < 64 →
    r.getLsbD k = if pos ≤ k ∧ k < pos + len then a.getLsbD (k - pos) else s.turn.ops.p.getLsbD k)

/-- R148, R162: the operations of MUL write port D. A division by 0 gives all ones and its remainder A; the latencies of the
multiplications are one clock longer on SPX and SRT. -/
def Claims.Multiplier : Prop := ∀ s : State,
  let a := s.turn.ops.a
  let b := s.turn.ops.b
  let slow := if s.coreCls s.turn.core = .spx ∨ s.coreCls s.turn.core = .srt then 1 else 0
  let d : Nat → Word → State := fun lat w => started s .mul lat (toD w)
  Gives .mull s (d (3 + slow) (a * b)) ∧
  Gives .mulh s (d (4 + slow) (BitVec.ofInt 64 (a.toInt * b.toInt / 2 ^ 64))) ∧
  Gives .mulhu s (d (4 + slow) (BitVec.ofNat 64 (a.toNat * b.toNat / 2 ^ 64))) ∧
  Gives .mulw s (d (3 + slow) ((a.setWidth 32 * b.setWidth 32).signExtend 64)) ∧
  Gives .div s (d 24 (if b = 0 then -1 else BitVec.ofInt 64 (a.toInt.tdiv b.toInt))) ∧
  Gives .divu s (d 24 (if b = 0 then -1 else BitVec.ofNat 64 (a.toNat / b.toNat))) ∧
  Gives .rem s (d 24 (if b = 0 then a else BitVec.ofInt 64 (a.toInt.tmod b.toInt))) ∧
  Gives .remu s (d 24 (if b = 0 then a else BitVec.ofNat 64 (a.toNat % b.toNat)))

/-- R160, R161: the operations of ALA and ALB, each at its DSEL: its result in D or F one clock later and nothing else; none of them
raises a fault. -/
def Obligations.IntegerUnitOperations : Prop := Claims.IntegerWords ∧ Claims.IntegerBits ∧ ∀ (u : AluUnit) (s : State) (p : Nat × Instr), p ∈
    [(0x08, Instr.add u), (0x09, .sub u), (0x0A, .addw u), (0x0B, .subw u), (0x0C, .and u), (0x0D, .or u), (0x0E, .xor u),
     (0x0F, .andn u), (0x10, .shl u), (0x11, .shr u), (0x12, .sra u), (0x13, .shlw u), (0x14, .shrw u), (0x15, .sraw u),
     (0x16, .rol u), (0x17, .ror u), (0x18, .clz u), (0x19, .ctz u), (0x1A, .popc u), (0x1B, .brev u), (0x1C, .bswap u),
     (0x20, .eq u), (0x21, .ne u), (0x22, .lt u), (0x23, .ltu u), (0x24, .le u), (0x25, .leu u), (0x28, .min u), (0x29, .minu u),
     (0x2A, .max u), (0x2B, .maxu u), (0x2C, .sel u), (0x30, .sext8 u), (0x31, .sext16 u), (0x32, .sext32 u), (0x33, .zext8 u),
     (0x34, .zext16 u), (0x35, .zext32 u), (0x38, .extr u), (0x39, .ins u), (0x3A, .pass u)] →
    opOf u.fu (p.1 - 8) = some p.2 ∧ checkOp p.2 s = .ok

/-- R162: the operations of MUL, each at its DSEL: its result in D after its latency and nothing else. A division by 0 gives all ones and the
remainder A, the quotient of −2^63 by −1 wraps, and none of them raises a fault. The worked move of DIV decodes. -/
def Obligations.MultiplierOperations : Prop := Claims.Multiplier ∧
  (∀ (s : State) (p : Nat × Instr), p ∈
    [(0x08, Instr.mull), (0x09, .mulh), (0x0A, .mulhu), (0x0B, .mulw), (0x0C, .div), (0x0D, .divu), (0x0E, .rem), (0x0F, .remu)] →
    opOf .mul (p.1 - 8) = some p.2 ∧ checkOp p.2 s = .ok) ∧
  decodeMove true 0x00518004 = some (some ⟨⟨false, 0⟩, .trig .mul (0x0C - 8), .srf 4⟩)

/-- R89, R145, R146, R179, R187, R200: RESULT_WRITE lets the operation that the item numbers write. Each of its results, scalar, vector or
capability, moves its port's window down by one; its conditions are ORed into VFLAGS; the result of VFMAC also goes to port C of its unit,
unless the bundle of this clock wrote that port; an enabled condition leaves ARITH pending with the unit, the bundle and the lowest element,
and of two the operation issued first is described. No other window, register, flag or core changes. -/
def Obligations.ResultWriteShiftsOneWindow : Prop := ∀ (s : State) (e : InFlight),
  let n := s.turn.core
  let x := (s.core n).ctx
  let key : Nat → Nat := fun p => e.fu.id * 4 + p
  let zs : Win Word := Win.zero 0
  let zv : Win VReg := Win.zero 0
  let zk : Win Handle := Win.zero 0
  let mine : Arith := { fu := e.fu.id, bidx := e.bidx, slot := e.slot, raised := e.raised, lowest := e.lowest, seq := e.seq }
  (s.core n).inflight.find? (fun f => f.seq == s.turn.item) = some e → (e.writes.map (fun p => p.1)).Nodup →
  ∃ t y, Gives .resultWrite s t ∧ y = (t.core n).ctx ∧ t = { s with cores := t.cores } ∧ (∀ m, m ≠ n → t.core m = s.core m) ∧
    t.core n = { s.core n with ctx := y, inflight := (s.core n).inflight.filter (fun f => f.seq != e.seq) } ∧
    y = { x with swin := y.swin, vwin := y.vwin, kwin := y.kwin, vport := y.vport, vflags := x.vflags ||| e.raised, arith := y.arith } ∧
    (∀ p w, (p, ResVal.s w) ∈ e.writes → let o := x.swin.get (key p) zs
      y.swin.get (key p) zs = ⟨w, o.d0, o.d1, o.d2⟩) ∧
    (∀ p v, (p, ResVal.v v) ∈ e.writes → let o := x.vwin.get (key p) zv
      y.vwin.get (key p) zv = ⟨v, o.d0, o.d1, o.d2⟩) ∧
    (∀ p h, (p, ResVal.k h) ∈ e.writes → let o := x.kwin.get (key p) zk
      y.kwin.get (key p) zk = ⟨h, o.d0, o.d1, o.d2⟩) ∧
    (∀ j, (∀ p w, (p, ResVal.s w) ∈ e.writes → j ≠ key p) → y.swin.get j zs = x.swin.get j zs) ∧
    (∀ j, (∀ p v, (p, ResVal.v v) ∈ e.writes → j ≠ key p) → y.vwin.get j zv = x.vwin.get j zv) ∧
    (∀ j, (∀ p h, (p, ResVal.k h) ∈ e.writes → j ≠ key p) → y.kwin.get j zk = x.kwin.get j zk) ∧
    (∀ p v rest, e.macC = true → e.fu ∉ (s.core n).movedC → e.writes = (p, .v v) :: rest →
      y.vport.get (e.fu.id * 8 + 2) 0 = v ∧ ∀ j, j ≠ e.fu.id * 8 + 2 → y.vport.get j 0 = x.vport.get j 0) ∧
    (e.macC = false ∨ e.fu ∈ (s.core n).movedC → y.vport = x.vport) ∧
    (e.raised &&& e.enabled = 0 → y.arith = x.arith) ∧
    (e.raised &&& e.enabled ≠ 0 → (∀ a, x.arith = some a → a.seq < e.seq → y.arith = some a) ∧
      ((∀ a, x.arith = some a → e.seq ≤ a.seq) → y.arith = some mine))

/-- R164-R166: the branch operations, each completing in every state. A jump names the next bundle, CALL also sends the index after its own
to port D, LOOP sets LC, ESC, LHEAD, the stage predicates and, with C[63] = 1, RRB (R166), and NOPW pauses issue for A[15:0] clocks, or not
at all for 0. The rest of the context, the operations in flight, the mode, every other core and memory stay as they are. -/
def Obligations.BranchResults : Prop := ∀ s : State,
  let n := s.turn.core
  let c := s.core n
  let a := s.turn.ops.a
  let to_ : Word → State := fun p => withCtx s { c.ctx with pc := p }
  Gives .jmp s (to_ a) ∧ Gives .ret s (to_ a) ∧ Gives .jmpr s (to_ (s.turn.bidx + a)) ∧
  Gives .call s (started (to_ a) .bru 1 (toD (s.turn.bidx + 1))) ∧
  (∃ t, Gives .loop s t ∧ CtxOnly n s t ∧
    (let y := (t.core n).ctx
     let trips := a.toNat % 2 ^ 32
     let stages := min (max (s.turn.ops.b.toNat % 16) 1) 8
     y.lc = (if trips = 0 then 0 else BitVec.ofNat 32 (trips - 1)) ∧ y.esc = (if trips = 0 then 0 else BitVec.ofNat 3 (stages - 1)) ∧
     y.lhead = (s.turn.bidx + 1).setWidth 13 ∧ (∀ k, k < 8 → y.prf.getLsbD k = c.ctx.prf.getLsbD k) ∧
     (∀ k, 8 ≤ k → k < 16 → y.prf.getLsbD k = (decide (trips ≠ 0) && decide (k = 8))) ∧
     (s.turn.ops.c.getLsbD 63 = false → y.rrb = c.ctx.rrb) ∧
     (s.turn.ops.c.getLsbD 63 = true → y.rrb.toNat = if c.ctx.rs = 0 then 0 else s.turn.ops.c.toNat % 2 ^ 7 % c.ctx.rs) ∧
     y = { c.ctx with lc := y.lc, esc := y.esc, lhead := y.lhead, prf := y.prf, rrb := y.rrb })) ∧
  (c.mode = .run ∨ c.mode = .hold → a.toNat % 65536 ≠ 0 →
    Gives .nopw s (withCore s { c with mode := .pause, ctx := { c.ctx with nopw := a.toNat % 65536 } })) ∧
  (a.toNat % 65536 = 0 → Gives .nopw s (withCore s c)) ∧
  (c.mode = .pause →
    Gives .nopwPauseEnd s (withCore s { c with mode := .run, ctx := { c.ctx with nopw := 0 } }))


/-- R5, R149, R153, R154: CSRR, CSRW, CSRS and CSRC in clock t + 2. The old value of the register enters SYS.D0. A write changes the named
register only, by its Access codes: an RW field takes A, the OR, or the AND-NOT; each of the three writes clears the W1C bits that are 1 in
A; RO and HW fields and unlisted numbers stay; PIDX discards a parked operation whose PARK bit is written with 1; a write of XWINk marks
accumulator k as changed (R213). -/
def Claims.CsrOperations : Prop := ∀ (s : State) (i : Instr) (f : Word → Word → Word),
  (i, f) ∈ [(Instr.csrw, fun _ a => a), (.csrs, fun o a => o ||| a), (.csrc, fun o a => o &&& ~~~a)] →
  let c := s.turn.core
  let x := (s.core c).ctx
  let a := s.turn.ops.a
  let z : Win Word := Win.zero 0
  let entered : State → Word → Prop := fun t v =>
    let w := x.swin.get (FU.sys.id * 4) z
    (t.core c).ctx.swin.get (FU.sys.id * 4) z = ⟨v, w.d0, w.d1, w.d2⟩ ∧
      ∀ k, k ≠ FU.sys.id * 4 → (t.core c).ctx.swin.get k z = x.swin.get k z
  (∃ t, Gives .csrr s t ∧ CtxOnly c s t ∧ (t.core c).ctx = { x with swin := (t.core c).ctx.swin } ∧
    entered t (s.csrRead c (a.toNat % 4096))) ∧
  (let n := s.turn.ops.b.toNat % 4096
   let old := s.csrRead c n
   ∃ t, Gives i s t ∧ CtxOnly c s t ∧ SystemOnly x (t.core c).ctx ∧ entered t old ∧
    (∀ k, k ≠ n → t.csrRead c k = s.csrRead c k) ∧
    (∀ m, rwMask n = some m → t.csrRead c n = f old a &&& m) ∧
    (n = 0x003 ∨ n = 0x055 → t.csrRead c n = old &&& ~~~a) ∧
    (readOnly n → (t.core c).ctx = { x with swin := (t.core c).ctx.swin }) ∧
    (n = 0x004 → ((t.core c).ctx.vxuLong = if x.vxuLong.any (fun l => l.parked) ∧ a.getLsbD 31 then none else x.vxuLong) ∧
      ((t.core c).ctx.vlsLong = if x.vlsLong.any (fun l => l.parked) ∧ a.getLsbD 63 then none else x.vlsLong)) ∧
    (n = 0x025 → (t.core c).ctx.tret.setWidth 64 = f (x.tret.setWidth 64) a &&& 0x1FFF ∧
      (t.core c).ctx.tout = (x.tout && !a.getLsbD 30) ∧ (t.core c).ctx.inTrap = x.inTrap) ∧
    (∀ k, k < 4 → n = 0x060 + k → t.csrRead c n &&& 0x1FFF =
        (if s.coreCls c = .vec then f old a &&& 0x1FFF else old &&& 0x1FFF) ∧
      (t.core c).ctx.lacDirty = if s.coreCls c = .vec then x.lacDirty ||| BitVec.ofNat 4 (2 ^ k) else x.lacDirty) ∧
    (n < 0x060 ∨ 0x063 < n → (t.core c).ctx.lacDirty = x.lacDirty))

/-- R155-R159, R263, R264: the SYS operations that read something and answer in a result window, and change nothing else. HLD gives the
handle of the table with the rights named by B removed, DTRD a word of the discovery table, 0 for a site that it does not list, DIAG a
diagnostic word, and HINFO facts about a buffer. -/
def Claims.SysReads : Prop := ∀ s : State,
  let n := s.turn.core
  let c := s.core n
  let a := s.turn.ops.a
  let b := s.turn.ops.b
  let h := s.turn.ops.h
  (Passes .hld s → ∃ k : Handle, Gives .hld s (started s .sys 4 [(2, .k k)]) ∧
    ∀ j, k.getLsbD j = ((c.ctx.htab.get a.toNat 0).getLsbD j && !(decide (28 ≤ j) && decide (j < 32) && b.getLsbD (j - 28)))) ∧
  (checkOp .hld s = .ok ↔ a.toNat ≤ c.ctx.htbNent.toNat) ∧
  (a.toNat < 27 → Gives .dtrd s (started s .sys 31 (toD ((s.siteDisc a.toNat).word (b.toNat % 4))))) ∧
  (27 ≤ a.toNat → Gives .dtrd s (started s .sys 31 (toD 0))) ∧
  (∃ v, Gives .diag s (started s .sys 2 (toD v)) ∧ (a = 0 → v = c.diagPriv.setWidth 64) ∧
    (a = 1 → v = (s.diagShared.get (n / 16) 0).setWidth 64) ∧ (a = 2 → v = c.diagPar.setWidth 64) ∧
    (a = 3 → v = BitVec.ofNat 64 n) ∧ (5 ≤ a.toNat → v = 0)) ∧
  (Passes .hinfo s → ∃ v : Word, Gives .hinfo s (started s .sys 4 (toD v)) ∧
    (let e := s.entryAt (n / 16) (h.toNat / 2 ^ 40)
     (a.toNat % 8 = 0 → v = BitVec.ofNat 64 e.size) ∧ (a.toNat % 8 = 4 → v = BitVec.ofNat 64 e.orcb) ∧ (a.toNat % 8 = 7 → v = 0) ∧
     (a.toNat % 8 = 1 → h.toNat % 2 ^ 28 = 0 → v = 0) ∧ (a.toNat % 8 = 2 → h.toNat % 2 ^ 28 = 0 → v = BitVec.ofNat 64 e.size)))

/-- R112, R259: an ALLOC held in issue. The allocator creates a buffer of A bytes with all rights for its holder, or refuses for a reason that
NF returns; at the end of the hold the bundle's moves and its other triggers take effect and H, F and D enter their windows, or, where the
bundle also waits, H, F and D enter and the wait goes on; a refusal without NF is the fault ALLOC_EXHAUSTED with nothing of the bundle
done. -/
def Obligations.AllocHoldAndResults : Prop := ∀ (s : State) (h : Hold) (a : AllocHold),
  let n := s.turn.core
  let c := s.core n
  let size := s.turn.ops.a
  let b := s.turn.ops.b
  let own := s.ownerRcb (s.rcbOf c.ctx.crew) b
  let r := s.allocReason size b own c.ctx.part (some (siteOf n))
  let decided : Option (Handle × Word × Word) → Core := fun x => { c with hold := some { h with alloc := some { a with res := some x } } }
  c.hold = some h → h.alloc = some a →
  (r ≠ 0 → Gives .alloc s (withCore s (decided (if b.getLsbD 18 then some (0, BitVec.ofNat 64 r, 0) else none)))) ∧
  (r = 0 → ∃ t bid, Gives .alloc s t ∧ (s.freshIds = true → s.bufs.find bid = none) ∧
    (let e := t.buf bid
     t.core n = decided (some (mkHandle bid e.gen.toNat 15 0, 0, BitVec.ofNat 64 (extentsTotal size.toNat (b.getLsbD 12)))) ∧
     e.state = 1 ∧ e.gen = (s.buf bid).gen ∧ e.size = size.toNat ∧ e.refs = 1 ∧ e.own = 0xFFFF ∧ e.uop = 0 ∧ e.orcb = own ∧
     e.hold1 = 0 ∧ e.hold2 = 0 ∧ e.hold3 = 0 ∧ (∀ j, j ≠ bid → t.buf j = s.buf j) ∧ t.mem = s.mem ∧
     ∀ m, m ≠ n → t.core m = s.core m)) ∧
  (a.left = 0 → a.res = some none →
    Gives .allocHoldEnd s (s.stopIssue n (.fault (strandFault cALLOC_EXHAUSTED a.slot h.bidx a.a 0)))) ∧
  (∀ k f d, a.left = 0 → a.res = some (some (k, f, d)) → h.wait = none →
    ∃ t, Gives .allocHoldEnd s t ∧ HeldEffect s t n h ∧ t = { s with cores := t.cores, agenda := t.agenda } ∧
      (∀ m, m ≠ n → t.core m = s.core m) ∧
      (let y := t.core n
       y.mode = .run ∧ y.hold = none ∧ y.ctx.seq = c.ctx.seq ∧ y.ctx.tout = c.ctx.tout ∧
       (y.ctx.kwin.get (FU.sys.id * 4 + 2) (Win.zero 0)).d0 = k ∧
       (y.ctx.swin.get (FU.sys.id * 4 + 1) (Win.zero 0)).d0 = f ∧ (y.ctx.swin.get (FU.sys.id * 4) (Win.zero 0)).d0 = d)) ∧
  (∀ k f d, a.left = 0 → a.res = some (some (k, f, d)) → h.wait ≠ none →
    ∃ t y, Gives .allocHoldEnd s t ∧ y = (t.core n).ctx ∧
      t = withCore s { c with hold := some { h with alloc := none }, ctx := { c.ctx with swin := y.swin, kwin := y.kwin } } ∧
      (y.kwin.get (FU.sys.id * 4 + 2) (Win.zero 0)).d0 = k ∧ (y.swin.get (FU.sys.id * 4 + 1) (Win.zero 0)).d0 = f ∧
      (y.swin.get (FU.sys.id * 4) (Win.zero 0)).d0 = d)

/-- R260-R262, R264: FREE drops one reference of the buffer of H and starts its reclaim with the last; RETAIN adds one and gives the same
handle with a narrower view and fewer rights at t + 4; HAND gives the buffer to a successor of the strand's node and puts the handle into
the instance's table. -/
def Obligations.BufferReferences : Prop := ∀ s : State,
  let n := s.turn.core
  let h := s.turn.ops.h
  let b := s.turn.ops.b
  let bid := h.toNat / 2 ^ 40
  let e := s.buf bid
  bid < 0xFFFC00 → e.state = 1 →
  (Passes .free s → 1 < e.refs.toNat → ∃ t, Gives .free s t ∧ t = { s with bufs := t.bufs } ∧
    (∀ j, j ≠ bid → t.buf j = s.buf j) ∧ t.buf bid = { e with refs := (t.buf bid).refs } ∧ (t.buf bid).refs.toNat = e.refs.toNat - 1) ∧
  (Passes .free s → e.refs.toNat ≤ 1 → ∃ t, Gives .free s t ∧ t = { s with bufs := t.bufs, reclaims := s.reclaims ++ [bid] } ∧
    (∀ j, j ≠ bid → t.buf j = s.buf j) ∧ t.buf bid = { e with state := 2, refs := 0 }) ∧
  (Passes .retain s → ∃ t k, Gives .retain s t ∧ t = { started s .sys 4 [(2, .k k)] with bufs := t.bufs } ∧
    t.buf bid = { e with refs := e.refs + 1 } ∧ (∀ j, j ≠ bid → t.buf j = s.buf j) ∧
    hBid k = bid ∧ hGen k = hGen h ∧ hView k = (if b.toNat % 2 ^ 28 = 0 then hView h else b.toNat % 2 ^ 28) ∧
    ∀ j, j < 4 → (hRights k).testBit j = ((hRights h).testBit j && !b.getLsbD (28 + j))) ∧
  (Passes .hand s →
    let x := (s.core n).ctx
    let rcb := s.rcbOf x.crew
    let own := BitVec.ofNat 16 ((s.node x.nodeId.toNat).succs.getD (b.toNat / 2 ^ 16 % 2 ^ 12) 0)
    ∃ t, Gives .hand s t ∧ t = { s with bufs := t.bufs, pins := t.pins, insts := t.insts } ∧ t.buf bid = { e with own := own } ∧
      (∀ j, j ≠ bid → t.buf j = s.buf j) ∧ (t.inst rcb).htab = (s.inst rcb).htab.set (b.toNat % 2 ^ 11) h ∧
      (∀ j, j ≠ rcb → t.inst j = s.inst j))

/-- R5, R149, R153-R159, R263, R264: the operations of SYS on system registers, and those that read something else and answer in a result
window. -/
def Obligations.SystemOperations : Prop := Claims.CsrOperations ∧ Claims.SysReads

/-- R60, R112: an operation run without its bundle's checks makes them itself: a fault or a trap that they find stops issue on its core,
a freeze freezes the core in this clock, and nothing of the operation is done. -/
def Claims.FailedCheck : Prop := ∀ (i : Instr) (s : State), s.turn.checked = false →
  (∀ f, checkOp i s = .fault f → Gives i s (s.stopIssue s.turn.core (.fault f))) ∧
  (∀ x, checkOp i s = .trap x → Gives i s (s.stopIssue s.turn.core (.trap x))) ∧
  (∀ k, checkOp i s = .freeze k → Gives i s (withCore s { s.core s.turn.core with frozen := true }))

/-- R53-R59, R156, R165: TRAP and TRET stop issue, TRAP_ENTRY enters the handler. TRAP without a handler, or inside one, is a fault, and so
is TRET outside one. Trap entry saves ports, windows, predicates, loop state and sill slots in the trap slot, writes TCAUSE, TINFO0-2 and
TSTAT, and issues at TVEC; registers, ports and windows stay as they are. -/
def Claims.TrapEntry : Prop := ∀ s : State,
  let n := s.turn.core
  let c := s.core n
  let x := c.ctx
  let bidx := s.turn.bidx
  let sw : TrapInfo := { cause := 0x01, fu := 0x06, info0 := bidx, info1 := s.turn.ops.a &&& 0xFFFF, info2 := 0, ret := (bidx + 1).setWidth 13 }
  let detail : Word := BitVec.ofNat 64 (0x01 + 0x06 * 2 ^ 8 + (s.turn.ops.a.toNat % 2 ^ 16) * 2 ^ 16)
  let stops : Instr → Stop → Prop := fun i w => ∃ t, Gives i s t ∧ t = { s with cores := t.cores } ∧ (∀ m, m ≠ n → t.core m = s.core m) ∧
    t.core n = { c with mode := .drain w, hold := none, freeze := none, faultAt := s.now, ctx := (t.core n).ctx } ∧
    (t.core n).ctx = { x with arith := x.arith, vxuLong := (t.core n).ctx.vxuLong, vlsLong := (t.core n).ctx.vlsLong }
  (Passes .trap s → stops .trap (.trap sw)) ∧
  (x.inTrap = true → checkOp .trap s = .fault (strandFault 0x42 s.turn.slot bidx detail 0)) ∧
  (x.inTrap = false → x.tvec = 0 → checkOp .trap s = .fault (strandFault 0x41 s.turn.slot bidx detail 0)) ∧
  (x.inTrap = false → x.tvec ≠ 0 → checkOp .trap s = .ok) ∧
  (Passes .tret s → stops .tret .tret) ∧ (checkOp .tret s = .ok ↔ x.inTrap = true) ∧
  (∀ k, c.mode = .save 0 (.trap k) →
    let ret := if k.cause = 0x03 then x.pc.setWidth 13 else k.ret
    let saved : TrapSlot :=
      { sport := x.sport, vport := x.vport, kport := x.kport, swin := x.swin, vwin := x.vwin, kwin := x.kwin, prf := x.prf, lc := x.lc,
        esc := x.esc, rrb := x.rrb, lhead := x.lhead, sillS := x.sillS, sillV := x.sillV, nopw := x.nopw, poisoned := false }
    let y : Ctx := { x with
      trapSlot := some saved, tcCode := BitVec.ofNat 8 k.cause, tcFu := BitVec.ofNat 5 k.fu, tinfo0 := k.info0, tinfo1 := k.info1,
      tinfo2 := k.info2, tret := ret, inTrap := true, nopw := 0, pc := x.tvec.setWidth 64 }
    Gives .trapEntry s (withCore s { c with mode := .run, ctx := y }))

/-- R59: the return of TRET brings back what trap entry saved, whatever the handler did to it, and issues at TSTAT.RET; the
long operations that the trap parked go on (R183), and every register stays as the handler left it. -/
def Claims.TrapReturn : Prop := ∀ (s : State) (n : Nat) (x : Ctx) (k : TrapInfo),
  let c := s.core n
  let y := c.ctx
  c.mode = .save 0 .tret → y.trapSlot = (x.enterTrap k).trapSlot →
  let z : Ctx := { y with
    sport := x.sport, vport := x.vport, kport := x.kport, swin := x.swin, vwin := x.vwin, kwin := x.kwin, prf := x.prf, lc := x.lc,
    esc := x.esc, rrb := x.rrb, lhead := x.lhead, sillS := x.sillS, sillV := x.sillV, nopw := x.nopw, trapSlot := none, inTrap := false,
    pc := y.tret.setWidth 64, vxuLong := y.vxuLong.map (LongOp.unpark true), vlsLong := y.vlsLong.map (LongOp.unpark true) }
  let m := if x.nopw = 0 then Mode.run else Mode.pause
  s.finishTret n = { s with cores := s.cores.set n { c with mode := m, ctx := z } }

/-- R48, R157, R165, R183, R244: HALT ends the strand after its bundle, closes its stream and lets its parked long operations go on; registers,
ports and memory stay. YIELD answers 1 and ends the slice, whose SLICE_END comes next, where another partition waits for the time-sliced
core, no cut of its partition is under way and the core is not entering a trap, else 0. -/
def Obligations.HaltAndYieldEndTheTurn : Prop := ∀ s : State,
  let n := s.turn.core
  let x := (s.core n).ctx
  let p := x.part
  (∃ t, Gives .halt s t ∧ (t.core n).mode = .halted ∧ (t.core n).ctx.stream.st = .closed ∧ (t.core n).ctx.stream.queue = [] ∧
    (∀ l, l ∈ (t.core n).ctx.loads ↔ l ∈ x.loads ∧ ∀ p e, l.dst ≠ .stream p e) ∧
    (t.core n).ctx = { x with
      stream := (t.core n).ctx.stream, loads := (t.core n).ctx.loads, vxuLong := x.vxuLong.map (LongOp.unpark true),
      vlsLong := x.vlsLong.map (LongOp.unpark true) } ∧
    ((s.core n).mbStrand = true → (t.core n).mbState = 3) ∧ ((s.core n).mbStrand = false → (t.core n).mbState = (s.core n).mbState) ∧
    (∀ m, m ≠ n → t.core m = s.core m) ∧ t = { s with cores := t.cores, crews := t.crews, nodes := t.nodes }) ∧
  (s.slices.find n = none → Gives .yield s (started s .sys 2 (toD 0))) ∧
  (∀ sl, s.slices.find n = some sl →
    (sl.part = p → s.partCutting p = false → s.enteringTrap n = false → s.coreWaiters p n = true →
      Gives .yield s { started s .sys 2 (toD 1) with
        slices := s.slices.set n { sl with ends := min sl.ends s.now }, agenda := .run { Turn.zero with item := n } .sliceEnd :: s.agenda }) ∧
    (sl.part ≠ p ∨ s.partCutting p = true ∨ s.enteringTrap n = true ∨ s.coreWaiters p n = false → Gives .yield s (started s .sys 2 (toD 0))))

/-- R63: what the eight words of a fault record hold. -/
def Claims.RecordHolds (r : Bits512) (f : FaultInfo) (part crew node core cidx tick rcb : Nat) : Prop :=
  let word : Nat → Nat → Nat → Nat := fun w lo len => r.toNat / 2 ^ (64 * w + lo) % 2 ^ len
  word 0 0 8 = f.code % 2 ^ 8 ∧ word 0 8 1 = (if f.more then 1 else 0) ∧ word 0 9 3 = 0 ∧ word 0 12 4 = f.src % 2 ^ 4 ∧
  word 0 16 16 = node % 2 ^ 16 ∧ word 0 32 16 = crew % 2 ^ 16 ∧ word 0 48 8 = part % 2 ^ 8 ∧ word 0 56 8 = 1 ∧
  word 1 0 13 = f.bidx % 2 ^ 13 ∧ word 1 13 4 = 0 ∧ word 1 17 3 = f.slot % 2 ^ 3 ∧ word 1 20 4 = cidx % 2 ^ 4 ∧
  word 1 24 8 = core % 2 ^ 8 ∧ word 1 32 32 = 0 ∧
  word 2 0 16 = f.cidxq % 2 ^ 16 ∧ word 2 16 8 = f.eng % 2 ^ 8 ∧ word 2 24 8 = f.esite % 2 ^ 8 ∧ word 2 32 32 = f.estat % 2 ^ 32 ∧
  word 3 0 64 = f.detail.toNat ∧ word 4 0 64 = f.handle.toNat ∧ word 5 0 64 = tick % 2 ^ 64 ∧ word 6 0 64 = rcb % 2 ^ 64 ∧
  word 7 0 64 = f.pidxv % 2 ^ 64

/-- R61-R64, R68, R72, R183: a fault of a strand, or of an engine or a path, that the turn carries for a crew of a node, and a fault at
dispatch. Its record enters the ring of its fault domain, or, with 64 in it, is dropped and counted in OVF. The crew and the node become FAULTED and the
launch queue freezes; a faulting strand's context moves to the pre-emption slot with its header, its long operations parked, the registers it
holds marked in VMAP and the marks of changes 0; the other strands are asked to stop, and an engine's fault moves no context. FREEZE does no
more. ABORT_GRAPH ends the node's graph instance and ABORT_JOB every instance of its job, and another strand of the crew that faulted
meanwhile has its own record too (log 50). -/
def Claims.NodeFaults : Prop := ∀ (s : State) (f : FaultInfo),
  let n := s.turn.core
  let k := s.turn.crew
  let c := s.crew k
  let src2 := decide (f.src = 2)
  let node := if src2 then s.turn.item else c.node
  let i := (s.node node).rcb
  let dom := s.faultDomain i
  let pol := (s.rcb dom).policy
  let old := (s.ring dom).recs
  let at_ : Nat → Nat := fun m => if f.src = 0 then (s.core m).faultAt / 30 else s.tick
  let idx : Nat → Nat := fun m => if k = 0 then 0 else c.cores.findIdx (fun j => j == m)
  let record : Bits512 → Prop := fun r => RecordHolds r f (s.nodePart (s.node node)) k node n (idx n) (at_ n) i
  s.turn.fault = some f →
  (src2 = false → s.crews.find k = none → Gives .fault s s) ∧
  (src2 = true → s.nodes.find node = none ∨ (s.node node).st = .retired ∨ (s.node node).st = .aborted → Gives .fault s s) ∧
  ((if src2 then (∃ x, s.nodes.find node = some x ∧ x.st ≠ .retired ∧ x.st ≠ .aborted) else k ≠ 0 ∧ c.rcb ≠ 0) →
    (k ≠ 0 → c.st ≠ .out) → ∃ t, Gives .fault s t ∧
    (old.length < 64 → ∃ r more, record r ∧ (t.ring dom).recs = old ++ r :: more ∧ (pol = 0 → more = [])) ∧
    (64 ≤ old.length → (t.ring dom).recs = old ∧ (pol = 0 → (t.rcb dom).ovf.toNat = min ((s.rcb dom).ovf.toNat + 1) 0xFFFF)) ∧
    (pol = 0 → (∀ j, j ≠ dom → t.ring j = s.ring j) ∧ t.mem = s.mem ∧ (t.node node).st = .faulted ∧ (∀ m, m ≠ node → t.node m = s.node m) ∧
      ((s.node node).st ≠ .faulted → (t.node node).fault = some f ∧ (t.node node).before = (s.node node).st) ∧
      (k ≠ 0 → (t.crew k).st = .faulted ∧
        ∀ m, m ∈ c.cores → m ≠ n → (s.core m).mode = .run → (s.core m).ctx.crew = k → (t.core m).stopReq = some .freeze) ∧
      (((s.part (s.inst i).part).queue (s.inst i).queue).st = .running →
        ((t.part (s.inst i).part).queue (s.inst i).queue).st = .frozen) ∧
      (f.src ≠ 0 → ∀ m, (t.core m).ctx = (s.core m).ctx ∧ (t.core m).preempt = (s.core m).preempt) ∧
      (f.src = 0 → (s.core n).mode = .drain (.fault f) →
        let x := (s.core n).ctx
        let y : Ctx := { x with
          vxuLong := x.vxuLong.map (LongOp.park false), vlsLong := x.vlsLong.map (LongOp.park false), dirty := 0, lacDirty := 0,
          vmap := (x.vmap ||| x.dirty) &&& BitVec.ofNat 128 (2 ^ x.nv - 1) }
        let head := (t.core n).preHead.toNat
        (t.core n).mode = .stopped ∧ (t.core n).preempt = some y ∧ (t.core n).ctx = y ∧ head / 2 ^ 32 % 2 ^ 8 = n % 256 ∧
        head / 2 ^ 40 % 2 ^ 8 = x.part % 256 ∧ head / 2 ^ 48 % 2 ^ 16 = s.mgmt.layout % 2 ^ 16 ∧ head / 2 ^ 128 % 2 ^ 128 = y.vmap.toNat)) ∧
    (pol = 1 ∨ pol ≠ 0 ∧ (s.rcb dom).level = 1 → (s.insts.find i).isSome = true → ∀ e, e ∈ t.nodes → e.1 ∉ (s.inst i).nodes) ∧
    (pol ≠ 0 → pol ≠ 1 → (s.rcb dom).level ≠ 1 → (s.insts.find i).isSome = true → ∀ j x, s.insts.find j = some x →
      (s.rcb j).parent = (s.rcb i).parent → ∀ e, e ∈ t.nodes → e.1 ∉ x.nodes) ∧
    (∀ m g, pol = 1 → f.src = 0 → (s.core n).mode = .drain (.fault f) → m ∈ c.cores → m ≠ n → (s.core m).mode = .drain (.fault g) →
      (s.core m).ctx.crew = k → g.src = 0 → (s.insts.find i).isSome = true → (s.inst i).nodes = [node] → s.crewsOf node = [k] →
      old.length + 1 + c.cores.length ≤ 64 → ∃ r, r ∈ (t.ring dom).recs ∧
        RecordHolds r g (s.nodePart (s.node node)) k node m (idx m) ((s.core m).faultAt / 30) i))

/-- R48, R61-R63: a fault of a boot-mailbox strand. The strand freezes, the core's STATE becomes 4, and the record, with node 0xFFFF, enters the ring
of the root's fault domain and raises firmware's fault interrupt; no node and no memory changes. -/
def Claims.MailboxFaults : Prop := ∀ (s : State) (f : FaultInfo) (c : Crew),
  let n := s.turn.core
  let k := s.turn.crew
  let old := (s.ring 0).recs
  s.turn.fault = some f → f.src ≠ 2 → s.crews.find k = some c → c.rcb = 0 →
  ∃ t, Gives .fault s t ∧ t.mem = s.mem ∧ t.nodes = s.nodes ∧ (t.crew k).st = .faulted ∧
    (∀ m, m ∈ c.cores → (t.core m).mbState = 4) ∧
    (old.length < 64 → t.mgmt.fwFault = true ∧ ∃ r, (t.ring 0).recs = old ++ [r] ∧
      RecordHolds r f 0 k 0xFFFF n (c.cores.findIdx (fun j => j == n)) (if f.src = 0 then (s.core n).faultAt / 30 else s.tick) 0) ∧
    (64 ≤ old.length → (t.ring 0).recs = old ∧ (t.rcb 0).ovf.toNat = min ((s.rcb 0).ovf.toNat + 1) 0xFFFF)

/-- R48, R61-R64, R68, R72, R183: a fault is recorded and its policy applied, for a node's crew, for a node at dispatch, and for a boot-mailbox strand. -/
def Obligations.FaultIsRecorded : Prop := Claims.NodeFaults ∧ Claims.MailboxFaults

/-- R53-R59, R156, R165: a strand trap taken, and the return from it. That a trap inside a handler is DOUBLE_TRAP where TVEC is 0 as well is
log 74. -/
def Obligations.TrapEntryAndReturn : Prop := Claims.TrapEntry ∧ Claims.TrapReturn

/-- R86, R89-R92, R182, R185-R188, R191, R192: the floating-point operations of VAA and VAB, and VSEL and VCVT. Each selected element is the
exact result rounded once; the conditions of all elements are gathered; VFMAC's result also goes to port C; nothing else changes. What
VMIN, VMAX, VRND and VCVT give for an element is said in ElementResultsAndConversions. A quiet NaN addend
of 0 times infinity is log 12, VDOTB without SAT logs 13 and 70, a BFP block in VCVT logs 14, 15, 68 and 69. -/
def Obligations.VectorFloatingResults : Prop := ∀ (u : VecUnit) (s : State) (f : FFmt),
  let v := vecIn s.turn.ops
  let w := f.width
  let md := v.mode
  let sat := v.satFor v.form.type
  let x : Nat → Machine.Num := fun q => f.decode (elem v.a w q)
  let y : Nat → Machine.Num := fun q => f.decode (elem v.b w q)
  let z : Nat → Machine.Num := fun q => f.decode (elem v.c w q)
  let gives : Instr → Nat → Bool → (Nat → Nat × Flags) → Prop := fun i lat mac g => Gives i s (tileDone s u.fu (vlat s lat) w g mac)
  (v.form.type = .fp f → f ≠ .e2m1 → v.n * w ≤ 8192 →
    gives (.vadd u) 4 false (fun q => f.deliver md sat (exactSum md [(x q).exact, (y q).exact])) ∧
    gives (.vsub u) 4 false (fun q => f.deliver md sat (exactSum md [(x q).exact, (y q).exact.neg])) ∧
    gives (.vmul u) 5 false (fun q => f.deliver md sat ((x q).mul (y q))) ∧
    gives (.vfma u) 5 false (fun q => f.deliver md sat (fmaExact md false false (x q) (y q) (z q))) ∧
    gives (.vfms u) 5 false (fun q => f.deliver md sat (fmaExact md false true (x q) (y q) (z q))) ∧
    gives (.vfnma u) 5 false (fun q => f.deliver md sat (fmaExact md true false (x q) (y q) (z q))) ∧
    gives (.vfmac u) 5 true (fun q => f.deliver md sat (fmaExact md false false (x q) (y q) (z q))) ∧
    gives (.vmin u) 4 false (fun q => fpMinMax f false (elem v.a w q) (elem v.b w q)) ∧
    gives (.vmax u) 4 false (fun q => fpMinMax f true (elem v.a w q) (elem v.b w q)) ∧
    gives (.vabs u) 4 false (fun q => if (x q).isNaN then (f.canonNaN, if (x q).isSig then fIVL else 0)
      else (elem v.a w q % 2 ^ (w - 1), 0)) ∧
    gives (.vneg u) 4 false (fun q => if (x q).isNaN then (f.canonNaN, if (x q).isSig then fIVL else 0)
      else (elem v.a w q ^^^ 2 ^ (w - 1), 0)) ∧
    gives (.vrnd u) 5 false (fun q => rndElem f md (elem v.a w q)) ∧
    Gives (.vcmp u) s (let r := (List.range v.n).map (fun q =>
        if v.sel q then (fpCond v.form.rnd (x q) (y q), cmpFlags v.form.rnd (x q) (y q)) else (false, 0))
      vecDone s u.fu (vlat s 4) [(3, .v (maskVec (r.map (fun p => p.1))))] (r.map (fun p => p.2)) false)) ∧
  (v.form.type ≠ .bfp → v.n * v.form.type.width ≤ 8192 →
    Gives (.vsel u) s (tileDone s u.fu (vlat s 4) v.form.type.width
      (fun q => (elem (if v.c.getLsbD q then v.b else v.a) v.form.type.width q, 0)) false)) ∧
  (Passes (.vcvt u) s → Gives (.vcvt u) s (vecDone s u.fu (vlat s 5) (cvtOut v).writes (cvtOut v).conds false)) ∧
  (Passes (.vdotb u) s → Gives (.vdotb u) s (tileDone s u.fu (vlat s 6) 32 (fun i =>
    FFmt.fp32.deliver .rne false (exactSum .rne [(FFmt.fp32.decode (elem v.c 32 i)).exact,
      (FFmt.bf16.decode (elem v.a 16 (2 * i))).mul (FFmt.bf16.decode (elem v.b 16 (2 * i))),
      (FFmt.bf16.decode (elem v.a 16 (2 * i + 1))).mul (FFmt.bf16.decode (elem v.b 16 (2 * i + 1)))])) false))

/-- R77, R94, R182, R188-R190, R192: the integer operations of VAA and VAB on every integer type. The value of each selected element of D
is the exact result, wrapped to the type or clamped to its range under SAT; an element not selected is A's; nothing else changes, and no
condition is raised. -/
def Obligations.VectorIntegerResults : Prop := ∀ (u : VecUnit) (s : State) (sg : Bool) (b : Nat),
  let v := vecIn s.turn.ops
  let n := v.n
  let lo : Int := if sg then -2 ^ (b - 1) else 0
  let hi : Int := if sg then 2 ^ (b - 1) - 1 else 2 ^ b - 1
  let num : VReg → Nat → Int := fun t q => readInt sg b (elem t b q)
  let wrap : Int → Int := fun k => if sg then Int.bmod k (2 ^ b) else k % 2 ^ b
  let narrow : Int → Int := fun k => if v.form.sat then max lo (min hi k) else wrap k
  let x := num v.a
  let y := num v.b
  let z := num v.c
  let kept : VReg → Prop := fun r => (∀ q, q < n → v.sel q = false → elem r b q = elem v.a b q) ∧ r.toNat < 2 ^ (n * b)
  let gives : Instr → Nat → (Nat → Int) → Prop := fun i lat g =>
    ∃ r : VReg, Gives i s (vecDone s u.fu (vlat s lat) [(0, .v r)] [] false) ∧ kept r ∧ ∀ q, q < n → v.sel q = true → num r q = g q
  let bits : Instr → (Nat → Nat → Nat) → Prop := fun i g =>
    ∃ r : VReg, Gives i s (vecDone s u.fu (vlat s 2) [(0, .v r)] [] false) ∧ kept r ∧
      ∀ q, q < n → v.sel q = true → elem r b q = g (elem v.a b q) (elem v.b b q)
  v.form.type = .int sg b → n * b ≤ 8192 →
  gives (.viadd u) 2 (fun q => narrow (x q + y q)) ∧ gives (.visub u) 2 (fun q => narrow (x q - y q)) ∧
  gives (.vimul u) 4 (fun q => narrow (x q * y q)) ∧ gives (.vimulh u) 4 (fun q => x q * y q / 2 ^ b) ∧
  gives (.vimad u) 4 (fun q => narrow (x q * y q + z q)) ∧ gives (.vimin u) 2 (fun q => min (x q) (y q)) ∧
  gives (.vimax u) 2 (fun q => max (x q) (y q)) ∧ gives (.viabs u) 2 (fun q => narrow (x q).natAbs) ∧
  (∃ m : VReg, Gives (.vicmp u) s (vecDone s u.fu (vlat s 2) [(3, .v m)] [] false) ∧
    ∀ q, q < 1024 → m.getLsbD q = (decide (q < n) && v.sel q &&
      (match v.form.rnd with
       | 0 => decide (x q = y q) | 1 => decide (x q ≠ y q) | 2 => decide (x q < y q) | 3 => decide (x q ≤ y q) | _ => false))) ∧
  bits (.vand u) (fun p q => p &&& q) ∧ bits (.vor u) (fun p q => p ||| q) ∧ bits (.vxor u) (fun p q => p ^^^ q) ∧
  bits (.vshl u) (fun p k => p * 2 ^ (k % 256) % 2 ^ b) ∧ bits (.vshr u) (fun p k => p / 2 ^ (k % 256)) ∧
  (∃ r : VReg, Gives (.vsra u) s (vecDone s u.fu (vlat s 2) [(0, .v r)] [] false) ∧ kept r ∧
    ∀ q, q < n → v.sel q = true → sextNat (elem r b q) b = sextNat (elem v.a b q) b / 2 ^ (elem v.b b q % 256)) ∧
  bits (.vrot u) (fun p k => (p * 2 ^ (k % 256 % b) + p / 2 ^ (b - k % 256 % b)) % 2 ^ b) ∧
  (b = 8 → n * 32 ≤ 8192 → ∃ r : VReg, Gives (.vdot4 u) s (vecDone s u.fu (vlat s 6) [(0, .v r)] [] false) ∧
    ∀ q, q < n → v.sel q = true →
      let k := readInt true 32 (elem v.c 32 q) + x (4 * q) * y (4 * q) + x (4 * q + 1) * y (4 * q + 1) + x (4 * q + 2) * y (4 * q + 2)
        + x (4 * q + 3) * y (4 * q + 3)
      readInt true 32 (elem r 32 q) = if v.form.sat then max (-2 ^ 31) (min (2 ^ 31 - 1) k) else Int.bmod k (2 ^ 32))

/-- R86, R90: rounding to nearest is never farther from the exact value than half a unit, and the directed modes stay on their side of
it. m * 2^e is rounded to a multiple of 2^q with q above e. -/
def Claims.Rounding : Prop := ∀ (neg : Bool) (m : Nat) (e q : Int), e < q →
  let d := 2 ^ (q - e).toNat
  let r : RMode → Int := fun md => if neg then -((roundTo md neg m e q).1 : Int) else (roundTo md neg m e q).1
  let x : Int := if neg then -(m : Int) else m
  (∀ md, md = RMode.rne ∨ md = RMode.rmm → 2 * (r md * d - x).natAbs ≤ d) ∧
  ((r .rne * d - x).natAbs * 2 = d → r .rne % 2 = 0) ∧
  r .rdn * d ≤ x ∧ x < (r .rdn + 1) * d ∧ x ≤ r .rup * d ∧ (r .rup - 1) * d < x ∧
  (r .rtz * d).natAbs ≤ x.natAbs ∧ x.natAbs < (r .rtz * d).natAbs + d ∧
  ∀ md, (roundTo md neg m e q).2 = decide (m % d ≠ 0)

/-- R78, R86, R87, R90: an exact result that the format holds is delivered as it is, in every rounding mode, and raises nothing. -/
def Claims.Representable : Prop := ∀ (f : FFmt) (md : RMode) (sat neg : Bool) (k m : Nat) (e : Int),
  k < 2 ^ f.width → f.decode k = .fin neg m e → f.deliver md sat (.val neg m e) = (k, 0)

/-- R193-R195, R197: the element moves of VXU. Element q of D, of the form's width, is the element of A, B's word or C that the operation
names; VCOMP and VEXP also count into S; nothing is raised and nothing else changes. -/
def Obligations.VectorExchangeMoves : Prop := ∀ s : State,
  let v := vecIn s.turn.ops
  let w := v.w
  let c := v.cols
  let k := s.turn.ops.b.toNat
  let a := elem v.a w
  let gives : Instr → (Nat → Nat) → Prop := fun i g => Passes i s →
    ∃ r : VReg, Gives i s (vecDone s .vxu (vlat s 3) [(0, .v r)] [] false) ∧ (∀ q, q < v.n → elem r w q = g q) ∧ r.toNat < 2 ^ (v.n * w)
  let sel : (Nat → Nat) → Nat → Nat := fun g q => if v.sel q then g q else a q
  v.form.type ≠ .bfp → v.form.type ≠ .fp .e2m1 → v.n * w ≤ 8192 →
  gives .rowget (fun q => if q < c ∧ k < v.rows then a (k * c + q) else 0) ∧
  gives .rowput (fun q => if q / c = k then a (q % c) else elem v.c w q) ∧
  gives .colget (fun q => if q < v.rows ∧ k < c then a (q * c + k) else 0) ∧
  gives .colput (fun q => if q % c = k then a (q / c) else elem v.c w q) ∧
  gives .vtrn (fun q => a (q % c * c + q / c)) ∧
  gives .vperm (sel (fun q => if elem v.c 16 q < v.n then a (elem v.c 16 q) else 0)) ∧
  gives .vbcast (sel (fun q =>
    if s.turn.ops.b.getLsbD 16 then (if k % 64 < v.rows then a (k % 64 * c + q % c) else 0)
    else (if k % 65536 < v.n then a (k % 65536) else 0))) ∧
  gives .vins (fun q => if q = k then a 0 else elem v.c w q) ∧
  ((∃ sg b, v.form.type = .int sg b) → gives .viota (sel (fun q => (k + q) % 2 ^ w))) ∧
  (Passes .vshp s → shapeN (s.turn.ops.b.setWidth 13) * w ≤ 8192 →
    ∃ r : VReg, Gives .vshp s (vecDone s .vxu (vlat s 3) [(0, .v r)] [] false) ∧
    ∀ q, q < shapeN (s.turn.ops.b.setWidth 13) →
      let c' := shapeCols (s.turn.ops.b.setWidth 13)
      elem r w q = if q / c' < v.rows ∧ q % c' < c then a (q / c' * c + q % c') else 0) ∧
  (let marked := (List.range v.n).filter (fun q => v.c.getLsbD q)
   let count : Word := BitVec.ofNat 64 marked.length
   (∃ r : VReg, Gives .vcomp s (vecDone s .vxu (vlat s 6) [(0, .v r), (1, .s count)] [] false) ∧
      ∀ j, (h : j < marked.length) → elem r w j = a marked[j]) ∧
   (∃ r : VReg, Gives .vexp s (vecDone s .vxu (vlat s 6) [(0, .v r), (1, .s count)] [] false) ∧
      (∀ j, (h : j < marked.length) → elem r w marked[j] = a j) ∧ ∀ q, q < v.n → v.c.getLsbD q = false → elem r w q = 0)) ∧
  (∃ x : Word, Gives .vextr s (vecDone s .vxu (vlat s 3) [(1, .s x)] [] false) ∧ (v.n ≤ k → x = 0) ∧
    (k < v.n → (if v.form.type = .int true w then x.toInt = sextNat (a k) w else x.toNat = a k))) ∧
  (Passes .vmpop s → ∃ x : Word, Gives .vmpop s (vecDone s .vxu (vlat s 3) [(1, .s x)] [] false) ∧
    x.toNat = ((List.range v.n).filter (fun q => v.a.getLsbD q)).length)

/-- R196: element j of group g of an axis: the whole tile for 0 and 3, each row for 1, each column for 2. -/
def Claims.place (v : VecIn) (axis g j : Nat) : Nat := if axis = 1 then g * v.cols + j else if axis = 2 then j * v.cols + g else j

/-- R196: the fixed tree: one element is its own result, and a longer list is first halved, neighbours combined in order and an odd last
element kept. -/
def Claims.ReductionTree (v : VecIn) (tree : List Nat → Nat × Flags) : Prop := (∀ x, tree [x] = (x, 0)) ∧
  ∀ l : List Nat, 2 ≤ l.length → ∃ m : List Nat, m.length = (l.length + 1) / 2 ∧
    (∀ k x y, l[2 * k]? = some x → l[2 * k + 1]? = some y → m[k]? = some (v.step x y).1) ∧
    (l.length % 2 = 1 → m[l.length / 2]? = l[l.length - 1]?) ∧ (tree l).1 = (tree m).1 ∧
    ∀ j, (tree l).2.getLsbD j = true ↔ (tree m).2.getLsbD j = true ∨
      ∃ k x y, l[2 * k]? = some x ∧ l[2 * k + 1]? = some y ∧ (v.step x y).2.getLsbD j = true

/-- R196: VRED and VSCAN at every OP, AXIS and SAT. A combination step of integers is the sum wrapped, or clamped under SAT, or the lesser or
greater; of floating-point numbers it is the sum rounded in the form's mode, or what VMIN or VMAX gives. VRED reduces each group by the
fixed tree and VSCAN gives each element of a group the combination of the one before it with A's. -/
def Claims.Reductions : Prop := ∀ s : State,
  let v := vecIn s.turn.ops
  let w := v.form.type.width
  let op := s.turn.ops.b.toNat % 4
  let axis := s.turn.ops.b.toNat / 4 % 4
  let groups := if axis = 1 then v.rows else if axis = 2 then v.cols else 1
  let size := if axis = 1 then v.cols else if axis = 2 then v.rows else v.n
  let a : Nat → Nat := elem v.a w
  let shown : Nat → Word := fun r => match v.form.type with
    | .int true b => sext64 r b
    | t => zext64 r t.width
  (∀ sg b x y, v.form.type = .int sg b →
    let lo : Int := if sg then -2 ^ (b - 1) else 0
    let hi : Int := if sg then 2 ^ (b - 1) - 1 else 2 ^ b - 1
    let sum := readInt sg b x + readInt sg b y
    let r := readInt sg b (v.step x y).1
    (v.step x y).2 = 0 ∧
      (op = 0 ∨ op = 3 → r = if v.form.sat then max lo (min hi sum) else if sg then Int.bmod sum (2 ^ b) else sum % 2 ^ b) ∧
      (op = 1 → r = min (readInt sg b x) (readInt sg b y)) ∧ (op = 2 → r = max (readInt sg b x) (readInt sg b y))) ∧
  (∀ f x y, v.form.type = .fp f →
    (op = 0 ∨ op = 3 →
      v.step x y = f.deliver v.mode (v.satFor v.form.type) (exactSum v.mode [(f.decode x).exact, (f.decode y).exact])) ∧
    (op = 1 → v.step x y = fpMinMax f false x y) ∧ (op = 2 → v.step x y = fpMinMax f true x y)) ∧
  (Passes .vred s → ∃ tree : List Nat → Nat × Flags, ReductionTree v tree ∧
    (let r := (List.range groups).map (fun g => tree ((List.range size).map (fun j => a (place v axis g j))))
     let tile : Nat × ResVal := (0, .v (tileOf w (r.map (fun p => p.1))))
     Gives .vred s (vecDone s .vxu (vlat s 12)
       (if axis = 1 ∨ axis = 2 then [tile] else [tile, (1, .s (shown (tree ((List.range v.n).map a)).1))]) (r.map (fun p => p.2)) false))) ∧
  (Passes .vscan s → ∃ r : Nat → Nat × Flags,
    (∀ g, g < groups → r (place v axis g 0) = (a (place v axis g 0), 0)) ∧
    (∀ g j, g < groups → j + 1 < size →
      r (place v axis g (j + 1)) = v.step (r (place v axis g j)).1 (a (place v axis g (j + 1)))) ∧
    Gives .vscan s (vecDone s .vxu (vlat s 12) [(0, .v (tileOf w ((List.range v.n).map (fun q => (r q).1))))]
      ((List.range v.n).map (fun q => (r q).2)) false))

/-- R196, R199: VRED, VSCAN and the special functions. A VRED sum of integers without SAT is the sum modulo the width, in element 0 and
sign-extended in S for a signed type; the prefixes of VSCAN end in that sum; every OP, AXIS and SAT is as Reductions says; SFN works element
by element, with SQRT in 40 clocks, and what it gives for one is said in SpecialFunctionResults. -/
def Obligations.VectorReductionsAndFunctions : Prop := Claims.Reductions ∧ ∀ s : State,
  let v := vecIn s.turn.ops
  (Passes .vred s → Gives .vred s (vecDone s .vxu (vlat s 12) (vredOut v).writes (vredOut v).conds false)) ∧
  (Passes .vscan s → Gives .vscan s (vecDone s .vxu (vlat s 12) (vscanOut v).writes (vscanOut v).conds false)) ∧
  (∀ sg b, v.form.type = .int sg b → v.n * b ≤ 8192 → v.form.sat = false → s.turn.ops.b.toNat % 16 = 0 →
    let sum : Int := ((List.range v.n).map (fun q => readInt sg b (elem v.a b q))).sum
    ∃ (r d : VReg) (x : Word), (vredOut v).writes = [(0, .v r), (1, .s x)] ∧ (vscanOut v).writes = [(0, .v d)] ∧
      (elem r b 0 : Int) = sum % 2 ^ b ∧ (elem d b (v.n - 1) : Int) = sum % 2 ^ b ∧
      (if sg then x.toInt = Int.bmod sum (2 ^ b) else (x.toNat : Int) = sum % 2 ^ b)) ∧
  (∀ f, v.form.type = .fp f → f = .fp64 ∨ f = .fp32 ∨ f = .fp16 ∨ f = .bf16 → v.n * f.width ≤ 8192 →
    let at_ : (Nat → Nat × Flags) → Nat → Nat × Flags := fun g q => g (elem v.a f.width q)
    Gives .rsqe s (tileDone s .sfn (vlat s 6) f.width (at_ (estElem .rsqe f)) false) ∧
    Gives .rcpe s (tileDone s .sfn (vlat s 6) f.width (at_ (estElem .rcpe f)) false) ∧
    Gives .exp2e s (tileDone s .sfn (vlat s 6) f.width (at_ (estElem .exp2e f)) false) ∧
    Gives .log2e s (tileDone s .sfn (vlat s 6) f.width (at_ (estElem .log2e f)) false) ∧
    Gives .sqrt s (tileDone s .sfn 40 f.width (at_ (sqrtElem f v.mode (v.satFor v.form.type))) false) ∧
    (∀ k neg e, f.decode k = .fin neg 0 e → estElem .rcpe f k = (f.infCode neg, fDZ) ∧ estElem .rsqe f k = (f.infCode neg, fDZ) ∧
      estElem .log2e f k = (f.infCode true, fDZ) ∧ sqrtElem f v.mode (v.satFor v.form.type) k = (f.pack neg 0 0, 0)))

/-- R201-R211: the long accumulators. XWIN sets the window base and clears every lane and flag; XADD, XADD2, XADD3 and XDOT add exact
terms lane by lane, without loss where the window reaches below every term; XSGN, XRND, XGET and XFLG read, and XFLG with FCLR clears what it
reports; XNEG negates; XMOV copies and loads. Every other lane, flag and base of every accumulator stays, and so do the registers, the rest
of the context, every other core and the rest of the state. -/
def Obligations.LongAccumulators : Prop := ∀ s : State,
  let n := s.turn.core
  let x := (s.core n).ctx
  let o := s.turn.ops
  let v := vecIn o
  let k := o.x.toNat % 4
  let lacOnly : State → Prop := fun t =>
    let y := (t.core n).ctx
    CtxOnly n s t ∧ y = { x with lanes := y.lanes, lflags := y.lflags, xbase := y.xbase, lacDirty := y.lacDirty } ∧
    y.lacDirty = x.lacDirty ||| BitVec.ofNat 4 (2 ^ k) ∧
    ∀ j, j < 4 → j ≠ k → y.xbase.get j 0 = x.xbase.get j 0 ∧ ∀ l, l < 64 → y.lane j l = x.lane j l ∧ y.lflag j l = x.lflag j l
  let eachLane : Instr → (Ctx → Nat → Prop) → Prop := fun i p => ∃ t, Gives i s t ∧ lacOnly t ∧
    (t.core n).ctx.xbase = x.xbase ∧ ∀ l, l < 64 → p (t.core n).ctx l
  let same : Ctx → Nat → Prop := fun y l => y.lane k l = x.lane k l ∧ y.lflag k l = x.lflag k l
  let adds : Instr → Nat → (VecIn → FFmt → Nat → List Machine.Num × List Exact) → Prop := fun i count term => Passes i s →
    eachLane i (fun y l =>
      let p := term v v.fmt l
      (count ≤ l ∨ v.sel l = false → same y l) ∧
      (l < count → v.sel l = true → p.1.all Num.finite = false → y.lane k l = x.lane k l ∧ y.lflag k l = x.lflag k l ||| lN) ∧
      (l < count → v.sel l = true → p.1.all Num.finite = true →
        let r := floorUnits (x.beta k) p.2
        y.lane k l = BitVec.ofInt 2048 ((x.lane k l).toInt + r.1) ∧
        y.lflag k l = x.lflag k l ||| (if r.2 then lI else 0)
          ||| (if -(2 : Int) ^ 2047 ≤ (x.lane k l).toInt + r.1 ∧ (x.lane k l).toInt + r.1 < 2 ^ 2047 then 0 else lO)))
  (∃ t, Gives .xwin s t ∧ lacOnly t ∧ (t.core n).ctx.xbase.get k 0 = o.va.setWidth 13 ∧
    ∀ l, l < 64 → (t.core n).ctx.lane k l = 0 ∧ (t.core n).ctx.lflag k l = 0) ∧
  eachLane .xclr (fun y l => if v.sel l then y.lane k l = 0 ∧ y.lflag k l = 0 else same y l) ∧
  (v.n ≤ 64 → adds .xadd v.n termAdd ∧ adds .xadd2 v.n termAdd2 ∧ adds .xadd3 v.n termAdd3) ∧ adds .xdot v.rows termDot ∧
  eachLane .xneg (fun y l => if v.sel l then y.lane k l = -x.lane k l ∧
    y.lflag k l = x.lflag k l ||| (if (x.lane k l).toInt = -2 ^ 2047 then lO else 0) else same y l) ∧
  (∃ (d : VReg) (g : Word), Gives .xsgn s (started s .lac 3 [(0, .v d), (1, .s g)]) ∧ ∀ l, l < 64 →
    g.getLsbD l = decide ((x.lane k l).toInt < 0) ∧
    elem d 8 l = if (x.lane k l).toInt < 0 then 255 else if (x.lane k l).toInt = 0 then 0 else 1) ∧
  (Passes .xrnd s → Gives .xrnd s (tileDone s .lac 6 v.w
    (fun q => rndLane v.fmt v.mode (v.satFor v.form.type) (x.beta k) (x.lane k q) (x.lflag k q)) false)) ∧
  (∃ (d : VReg) (g : Word), Gives .xget s (started s .lac 3 [(0, .v d), (1, .s g)]) ∧ ∀ j, j < 4 →
    elem d 2048 j = (x.lane k (o.x.toNat / 2 ^ 7 % 16 * 4 + j)).toNat ∧
    g.toNat / 2 ^ (3 * j) % 8 = (x.lflag k (o.x.toNat / 2 ^ 7 % 16 * 4 + j)).toNat) ∧
  (let m : BitVec 3 := match o.x.toNat / 2 ^ 4 % 4 with
     | 0 => lI | 1 => lO | 2 => lN | _ => 7
   ∃ (d : VReg) (g : Word),
    (∀ l, l < 64 → d.getLsbD l = decide (x.lflag k l &&& m ≠ 0) ∧ g.getLsbD l = decide (x.lflag k l &&& m ≠ 0)) ∧
    (∀ l, 64 ≤ l → d.getLsbD l = false) ∧
    (o.x.getLsbD 11 = false → Gives .xflg s (started s .lac 2 [(0, .v d), (1, .s g)])) ∧
    (o.x.getLsbD 11 = true → ∃ u, Gives .xflg s (started u .lac 2 [(0, .v d), (1, .s g)]) ∧ lacOnly u ∧
      (u.core n).ctx.xbase = x.xbase ∧
      ∀ l, l < 64 → (u.core n).ctx.lflag k l = x.lflag k l &&& ~~~m ∧ (u.core n).ctx.lane k l = x.lane k l)) ∧
  (let src := o.x.toNat / 2 ^ 2 % 4
   (src = k → Gives .xmov s s) ∧
   (src ≠ k → ∃ t, Gives .xmov s t ∧ lacOnly t ∧ (t.core n).ctx.xbase.get k 0 = x.xbase.get src 0 ∧
    ∀ l, l < 64 → (t.core n).ctx.lane k l = x.lane src l ∧ (t.core n).ctx.lflag k l = x.lflag src l)) ∧
  (let g := o.x.toNat / 2 ^ 7 % 16
   eachLane .xmovLoad (fun y l =>
    if l / 4 = g then (y.lane k l).toNat = elem o.va 2048 (l % 4) ∧ (y.lflag k l).toNat = o.vb.toNat / 2 ^ (3 * (l % 4)) % 8
    else same y l))

/-- R86, R90: a rounded result is within its bounds, and a representable one is exact. -/
def Obligations.RoundingIsCorrect : Prop := Claims.Rounding ∧ Claims.Representable

/-- R217, R219, R233-R236, R240: scratch loads and stores of LSU, VLD and VST outside shared scratch. A load puts the bytes of its addresses,
sign- or zero-extended, into D at its latency and changes nothing else; a store writes its bytes and every other byte of memory stays.
The addresses are those of scratchAddrs: private offsets wrap modulo the strand's share. -/
def Claims.ScratchMoves : Prop := ∀ (s : State) (i : Instr) (n : Nat) (sx : Bool),
  let sa := s.turn.ops.a.toNat % 2 ^ 32
  let at_ : Nat → List Nat := fun k => s.scratchAddrs s.turn.core sa k
  let bytes : Nat → List Byte := fun k => (at_ k).map (Memory.read s.mem)
  let stores : Instr → Nat → (Nat → Bool) → (Nat → Byte) → Prop := fun j k on byte => ∃ t, Gives j s t ∧
    t = { s with mem := t.mem, poison := t.poison } ∧
    (∀ m a, (at_ k)[m]? = some a → Memory.read t.mem a = if on m then byte m else Memory.read s.mem a) ∧
    (∀ a, a ∉ at_ k → Memory.read t.mem a = Memory.read s.mem a)
  let byteOf : Nat → Nat → Byte := fun x m => BitVec.ofNat 8 (x / 2 ^ (8 * m))
  Memory.wf s.mem = true → Passes i s → sa / 2 ^ 28 ≠ 1 →
  ((i, n, sx) ∈ [(Instr.ldb, 1, true), (.ldbu, 1, false), (.ldh, 2, true), (.ldhu, 2, false), (.ldw, 4, true), (.ldwu, 4, false),
      (.ldd, 8, false)] →
    ∃ v : Word, Gives i s (started s .lsu 4 (toD v)) ∧
      if sx then v.toInt = sextNat (ofBytes (bytes n)) (8 * n) else v.toNat = ofBytes (bytes n)) ∧
  ((i, n) ∈ [(Instr.stb, 1), (.sth, 2), (.stw, 4), (.std, 8)] → stores i n (fun _ => true) (byteOf s.turn.ops.b.toNat)) ∧
  (i = .vld → Gives i s (started s .vls ((if sa / 2 ^ 28 = 0 then 5 else 7) + (if s.coreCls s.turn.core = .vec then 0 else 3))
    [(0, .v (BitVec.ofNat 8192 (ofBytes (bytes 1024))))])) ∧
  (i = .vst → sa / 2 ^ 28 < 4 → stores i 1024 (storeMask s.turn.ops) (byteOf s.turn.ops.vc.toNat))

/-- R54, R216, R217, R235, R236, R240, R257, R422: what the check of a scratch access of LSU, VLD or VST finds: for a masked VST the shape, then
the rights of SPACE, then bounds, then alignment, which is a trap, or a fault where the strand cannot take one, and for a load the poison of its
bytes. LSU reaches private and shared scratch, VLD the C buffer of an array of its partition too, and VST its A buffer. -/
def Claims.ScratchFaults : Prop := ∀ (s : State) (i : Instr) (fu n al : Nat) (load : Bool),
  (i, fu, n, al, load) ∈ [(Instr.ldb, 0x07, 1, 1, true), (.ldbu, 0x07, 1, 1, true), (.ldh, 0x07, 2, 2, true), (.ldhu, 0x07, 2, 2, true),
    (.ldw, 0x07, 4, 4, true), (.ldwu, 0x07, 4, 4, true), (.ldd, 0x07, 8, 8, true), (.stb, 0x07, 1, 1, false), (.sth, 0x07, 2, 2, false),
    (.stw, 0x07, 4, 4, false), (.std, 0x07, 8, 8, false), (.vld, 0x14, 1024, 64, true), (.vst, 0x14, 1024, 64, false)] →
  let sa := s.turn.ops.a.toNat % 2 ^ 32
  let n_ := s.turn.core
  let x := (s.core n_).ctx
  let space := sa / 2 ^ 28
  let off := if space = 2 ∨ space = 3 then sa % 2 ^ 24 else sa % 2 ^ 28
  let d : Word := BitVec.ofNat 64 sa
  let may : Prop := space < 2 ∨ (s.arrayOk (n_ / 16) x.part (sa / 2 ^ 24 % 16) = true ∧ ((i = .vst ∧ space = 2) ∨ (i = .vld ∧ space = 3)))
  let inside : Prop := space = 0 ∨ off + n ≤ (s.scratchArea n_ sa).2
  let finds : Check → Prop := fun c => checkOp i s = c
  let detail : Word := BitVec.ofNat 64 (0x04 + fu * 2 ^ 8 + sa * 2 ^ 16)
  (i = .vst → maskedBad s.turn.ops = true → finds (s.faultHere cBAD_SHAPE (x.vshape.setWidth 64) 0)) ∧
  ((i = .vst → maskedBad s.turn.ops = false) →
    (¬may → finds (s.faultHere cCAP_RIGHTS d 0)) ∧ (may → ¬inside → finds (s.faultHere cCAP_BOUNDS d 0)) ∧
    (may → inside → off % al ≠ 0 →
      (x.inTrap = false → x.tvec ≠ 0 → finds (.trap { cause := 0x04, fu := fu, info0 := s.turn.bidx, info1 := d, info2 := BitVec.ofNat 64 al,
                                                       ret := s.turn.bidx.setWidth 13 })) ∧
      (x.inTrap = true → finds (.fault (strandFault 0x42 s.turn.slot s.turn.bidx detail 0))) ∧
      (x.inTrap = false → x.tvec = 0 → finds (.fault (strandFault 0x41 s.turn.slot s.turn.bidx detail 0)))) ∧
    (may → inside → off % al = 0 →
      (load = true → s.anyPoison (s.scratchAddrs n_ sa n) = true → finds (s.faultHere cPOISON d 0)) ∧
      (load = false ∨ s.anyPoison (s.scratchAddrs n_ sa n) = false → finds .ok))) ∧
  ∀ as, s.anyPoison as = true ↔ ∃ p, p ∈ as ∧ p / 64 ∈ s.poison

/-- R220, R221: an access to shared scratch of LSU or VLD asks for each 64-byte granule that it touches, once, and is served later: nothing is
read or written yet, and nothing else changes. -/
def Claims.SharedAccesses : Prop := ∀ (s : State) (i : Instr) (n : Nat),
  (i, n) ∈ [(Instr.ldb, 1), (.ldbu, 1), (.ldh, 2), (.ldhu, 2), (.ldw, 4), (.ldwu, 4), (.ldd, 8), (.stb, 1), (.sth, 2), (.stw, 4), (.std, 8),
    (.vld, 1024)] →
  let sa := s.turn.ops.a.toNat % 2 ^ 32
  Passes i s → sa / 2 ^ 28 = 1 →
  ∃ (t : State) (new : List SsmReq), Gives i s t ∧ t.ssm = s.ssm ++ new ∧
    (new.map (fun r => r.gran) = granulesOf (s.scratchAddrs s.turn.core sa n)) ∧
    (∀ r, r ∈ new → r.core = s.turn.core ∧ r.born = s.now ∧ r.group = s.stamp ∧
      r.wr = decide (i ∈ [Instr.stb, .sth, .stw, .std])) ∧
    t.mem = s.mem ∧ CtxOnly s.turn.core { s with ssm := t.ssm, ssmGroups := t.ssmGroups, stamp := s.stamp + 1 } t ∧
    (t.core s.turn.core).ctx = { (s.core s.turn.core).ctx with seq := (s.core s.turn.core).ctx.seq + 1 }

/-- R220, R221, R234, R240: VST to shared scratch asks for each granule that holds a byte that it writes, with those bytes; one that writes none
asks for nothing. -/
def Claims.SharedVst : Prop := ∀ s : State,
  let n := s.turn.core
  let o := s.turn.ops
  let sa := o.a.toNat % 2 ^ 32
  let cs : List Host.Cell := ((List.range 1024).filter (storeMask o)).map (fun m =>
    ((s.scratchAddrs n sa 1024).getD m 0, BitVec.ofNat 8 (o.vc.toNat / 2 ^ (8 * m))))
  Passes .vst s → sa / 2 ^ 28 = 1 →
  (cs = [] → Gives .vst s s) ∧
  (cs ≠ [] → ∃ (t : State) (new : List SsmReq), Gives .vst s t ∧ t.ssm = s.ssm ++ new ∧
    new.map (fun r => r.gran) = granulesOf (cs.map (fun c => c.1)) ∧
    (∀ r, r ∈ new → r.core = n ∧ r.born = s.now ∧ r.group = s.stamp ∧ r.wr = true ∧ r.inOrder = false ∧
      r.cells = cs.filter (fun c => c.1 / 64 == r.gran)) ∧
    t.mem = s.mem ∧ CtxOnly n { s with ssm := t.ssm, ssmGroups := t.ssmGroups, stamp := s.stamp + 1 } t ∧
    (t.core n).ctx = { (s.core n).ctx with seq := (s.core n).ctx.seq + 1 })

/-- R220, R221, R234, R240: accesses to shared scratch become requests. -/
def Obligations.SharedScratchRequests : Prop := Claims.SharedAccesses ∧ Claims.SharedVst

/-- R183, R198, R233, R234, R241, R242: the long vector operations as they start. Outside shared scratch, VLDS, VLD2D and VGTHL read their
selected elements into a staging tile at once, and VSTS, VST2D and VSCTL take theirs from C. In shared scratch a load asks for the granules of its
selected elements, and a store keeps its bytes for the clock in which it completes. -/
def Claims.LongStarts : Prop := ∀ s : State,
  let n := s.turn.core
  let x := (s.core n).ctx
  let o := s.turn.ops
  let v := vecIn o
  let w := v.form.type.width
  let sa := o.a.toNat % 2 ^ 32
  let clocks : Bool → Nat := fun two => 4 + if two then v.rows else (v.n + 15) / 16
  let value : List Nat → Nat := fun as => ofBytes (as.map (Memory.read s.mem))
  let starts : Instr → Bool → Nat → Bool → (Nat → List Nat) → Prop := fun i vls need load addr => ∃ l : LongOp,
    Gives i s (withCtx s (let y := { x with seq := x.seq + 1 }
      if vls then { y with vlsLong := some l } else { y with vxuLong := some l })) ∧
    l.need = need ∧ l.adv = 0 ∧ l.parked = false ∧ l.isLoad = load ∧ l.seq = x.seq + 1 ∧ l.group = none ∧
    (load = true → ∀ q, q < v.n → elem l.tile w q = if v.sel q then value (addr q) else 0) ∧
    (load = false → l.shared = [] ∧
      l.cells = ((List.range v.n).filter v.sel).flatMap (fun q => (addr q).zip (toBytes (elem v.c w q) (w / 8))))
  v.form.type ≠ .bfp → v.form.type ≠ .fp .e2m1 → v.n * w ≤ 8192 →
  (sa / 2 ^ 28 ≠ 1 → (Passes .vlds s → starts .vlds true (clocks false) true (fun q => (s.longAddrs false).getD q [])) ∧
    (Passes .vld2d s → starts .vld2d true (clocks true) true (fun q => (s.longAddrs true).getD q [])) ∧
    (Passes .vsts s → starts .vsts true (clocks false) false (fun q => (s.longAddrs false).getD q [])) ∧
    (Passes .vst2d s → starts .vst2d true (clocks true) false (fun q => (s.longAddrs true).getD q []))) ∧
  (Passes .vgthl s → starts .vgthl false (4 + (v.n + 7) / 8) true (s.gatherAddrs v)) ∧
  (Passes .vsctl s → starts .vsctl false (4 + (v.n + 7) / 8) false (s.gatherAddrs v)) ∧
  (sa / 2 ^ 28 = 1 → ∀ (i : Instr) (two : Bool),
    let addrs : Nat → List Nat := fun q => (s.longAddrs two).getD q []
    let picked := (List.range v.n).filter v.sel
    ((i, two) ∈ [(Instr.vlds, false), (.vld2d, true)] → Passes i s → ∃ (t : State) (l : LongOp), Gives i s t ∧ t.mem = s.mem ∧
      (t.core n).ctx = { x with seq := x.seq + 1, vlsLong := some l } ∧
      l.need = clocks two ∧ l.adv = 0 ∧ l.parked = false ∧ l.isLoad = true ∧ l.seq = x.seq + 1 ∧ l.tile = 0 ∧
      (picked = [] → t = { s with cores := t.cores } ∧ l.group = none) ∧
      (picked ≠ [] → l.group = some s.stamp ∧ l.elems = picked ∧ l.width = w ∧ ∃ (new : List SsmReq) (g : SsmGroup), t.ssm = s.ssm ++ new ∧
        new.map (fun r => r.gran) = granulesOf (picked.flatMap addrs) ∧ (∀ r, r ∈ new → r.core = n ∧ r.wr = false ∧ r.group = s.stamp) ∧
        t.ssmGroups.find s.stamp = some g ∧ g.addrs = picked.flatMap addrs ∧ g.long = true ∧ g.left = new.length)) ∧
    ((i, two) ∈ [(Instr.vsts, false), (.vst2d, true)] → Passes i s → ∃ l : LongOp,
      Gives i s (withCtx s { x with seq := x.seq + 1, vlsLong := some l }) ∧
      l.need = clocks two ∧ l.adv = 0 ∧ l.parked = false ∧ l.isLoad = false ∧ l.seq = x.seq + 1 ∧ l.group = none ∧ l.cells = [] ∧
      l.shared = picked.flatMap (fun q => (addrs q).zip (toBytes (elem v.c w q) (w / 8)))))

/-- R183, R198, R219, R234: a long operation that is due completes: a load writes its tile to its unit's window; a store writes its bytes, VLS
before VXU, or asks for its granules of shared scratch, which are then made in the order of its elements. -/
def Claims.LongCompletes : Prop := ∀ s : State,
  let n := s.turn.core
  let x := (s.core n).ctx
  let ready : LongOp → Prop := fun l => l.need ≤ l.adv ∧ l.group = none ∧ l.parked = false
  let win : Ctx → FU → Win VReg := fun y fu => y.vwin.get (fu.id * 4) (Win.zero 0)
  let loads : FU → LongOp → (Ctx → Ctx) → Prop := fun fu l clear => ∃ t, Gives .longOpComplete s t ∧ CtxOnly n s t ∧
    (win (t.core n).ctx fu).d0 = l.tile ∧ (win (t.core n).ctx fu).d1 = (win x fu).d0 ∧
    (t.core n).ctx = { clear x with vwin := (t.core n).ctx.vwin }
  let stores : List Host.Cell → Ctx → Prop := fun cs y => ∃ t, Gives .longOpComplete s t ∧ t.mem = Memory.writeCells s.mem cs ∧
    (t.core n).ctx = y ∧ t = { s with cores := t.cores, mem := t.mem, poison := t.poison }
  (∀ l, x.vlsLong = some l → ready l →
    (l.isLoad = true → s.turn.item = 1 → loads .vls l (fun y => { y with vlsLong := none })) ∧
    (l.isLoad = false → s.turn.item = 0 → l.shared = [] → x.vxuLong = none → stores l.cells { x with vlsLong := none }) ∧
    (l.isLoad = false → s.turn.item = 0 → l.cells = [] → l.shared ≠ [] → x.vxuLong = none → ∃ (t : State) (new : List SsmReq),
      Gives .longOpComplete s t ∧ t.mem = s.mem ∧ (t.core n).ctx = { x with vlsLong := none } ∧ t.ssm = s.ssm ++ new ∧
      new.map (fun r => r.gran) = granulesOf (l.shared.map (fun c => c.1)) ∧
      ∀ r, r ∈ new → r.core = n ∧ r.wr = true ∧ r.inOrder = true ∧ r.group = s.stamp ∧ r.cells = l.shared.filter (fun c => c.1 / 64 == r.gran))) ∧
  (∀ l, x.vxuLong = some l → ready l →
    (l.isLoad = true → s.turn.item = 2 → loads .vxu l (fun y => { y with vxuLong := none })) ∧
    (l.isLoad = false → s.turn.item = 0 → l.shared = [] → x.vlsLong = none → stores l.cells { x with vxuLong := none })) ∧
  (∀ l k, x.vlsLong = some l → ready l → l.isLoad = false → l.shared = [] → x.vxuLong = some k → ready k → k.isLoad = false → k.shared = [] →
    s.turn.item = 0 → stores (l.cells ++ k.cells) { x with vlsLong := none, vxuLong := none })

/-- R183, R198, R219, R220, R234: the granules of a long load from shared scratch come, and with the last its staging tile holds the bytes of each of
its elements. -/
def Claims.LongLoadServed : Prop := ∀ (s : State) (r : SsmReq) (g : SsmGroup) (l : LongOp),
  let site := s.turn.site
  s.ssm.filter (fun x => decide (x.gran / 2 ^ 18 = 2 ^ 41 + site)) = [r] → (∀ k, k ∈ s.ssmHeld → k / 256 ≠ site) → r.wr = false → r.core < 4096 →
  s.ssmGroups.find r.group = some g → g.left = 1 → g.long = true → g.got = [] → g.addrs ≠ [] → (∀ x, x ∈ g.addrs → x / 64 = r.gran) →
  (s.core g.core).ctx.crew = g.crew → (s.core g.core).ctx.vlsLong = some l → l.group = some r.group → l.elems.Nodup →
  l.width ∈ [8, 16, 32, 64] → (∀ q, q ∈ l.elems → (q + 1) * l.width ≤ 8192) → g.addrs.length = l.elems.length * (l.width / 8) →
  ∃ (t : State) (d : VReg), Gives .sharedScratchServe s t ∧ t.mem = s.mem ∧
    (t.core g.core).ctx = { (s.core g.core).ctx with vlsLong := some { l with group := none, tile := d } } ∧
    ∀ j q, l.elems[j]? = some q →
      elem d l.width q = ofBytes (((g.addrs.map (Memory.read s.mem)).drop (j * (l.width / 8))).take (l.width / 8))

/-- R183, R198, R219, R220, R233, R234, R241, R242: the long vector operations, from their start to their completion. That the addresses of VLDS
and its like are exact sums is log 23. -/
def Obligations.LongVectorOperations : Prop := Claims.LongStarts ∧ Claims.LongCompletes ∧ Claims.LongLoadServed

/-- R225-R228, R237-R239, R243: global loads and stores as they issue. A load makes its slot PENDING, counts in LDC and asks for the
granules of its bytes; a store counts in STC and holds its bytes in the write-combining buffer; memory is untouched by both. PREF and
VPREF count nowhere, and a PREF whose check fails does nothing (log 57). -/
def Obligations.GlobalAccessesIssue : Prop := ∀ (s : State) (i : Instr) (k : Nat),
  let n := s.turn.core
  let c := s.core n
  let x := c.ctx
  let o := s.turn.ops
  let addr := hAddr o.h o.a.toNat
  let slotS := o.b.toNat % 2 ^ 5
  let slotV := o.b.toNat % 2 ^ 3
  let loads : Instr → Nat → Bool → Prop := fun i k vec => Passes i s → ∃ (t : State) (l : GLoad), Gives i s t ∧ CtxOnly n s t ∧
    (t.core n).ctx = { x with
      seq := x.seq + 1, loads := x.loads ++ [l], ldc := x.ldc + 1, sillS := (t.core n).ctx.sillS, sillV := (t.core n).ctx.sillV } ∧
    l.addr = addr ∧ l.size = k ∧ l.seq = x.seq + 1 ∧ l.h = o.h ∧ l.counted = true ∧ (c.rcache = [] → l.todo = granules addr k) ∧
    l.deadline = s.cycle (n / 16) + o.b.toNat / 2 ^ 6 % 2 ^ 10 ∧
    (if vec then l.dst = .vector slotV ∧ (t.core n).ctx.sillS = x.sillS ∧
        (let e := (t.core n).ctx.sillV.get slotV SillV.empty
         e.st = .pending ∧ e.seq = x.seq + 1) ∧
        ∀ j, j ≠ slotV → (t.core n).ctx.sillV.get j SillV.empty = x.sillV.get j SillV.empty
      else l.dst = .scalar slotS (o.b.getLsbD 5) ∧ (t.core n).ctx.sillV = x.sillV ∧
        (let e := (t.core n).ctx.sillS.get slotS SillS.empty
         e.st = .pending ∧ e.seq = x.seq + 1) ∧
        ∀ j, j ≠ slotS → (t.core n).ctx.sillS.get j SillS.empty = x.sillS.get j SillS.empty)
  let stores : Instr → List (Nat × Byte) → Prop := fun i bs => Passes i s → (bs = [] → Gives i s s) ∧ (bs ≠ [] → ∃ t, Gives i s t ∧ t = { s with cores := t.cores } ∧
    (∀ m, m ≠ n → t.core m = s.core m) ∧ (t.core n).ctx = { x with seq := x.seq + 1, stc := x.stc + 1 } ∧
    (∀ p, p ∈ bs → (addr + p.1, p.2) ∈ (t.core n).pendingCells) ∧ (∀ p, p ∈ c.pendingCells → p ∈ (t.core n).pendingCells) ∧
    (t.core n).holdsStore x.crew (x.seq + 1) = true)
  ((i, k) ∈ [(Instr.gldb, 1), (.gldh, 2), (.gldw, 4), (.gldd, 8)] → loads i k false) ∧ (i = .vgld → loads .vgld 1024 true) ∧
  ((i, k) ∈ [(Instr.gstb, 1), (.gsth, 2), (.gstw, 4), (.gstd, 8)] →
    stores i ((List.range k).map (fun m => (m, BitVec.ofNat 8 (o.b.toNat / 2 ^ (8 * m)))))) ∧
  (i = .vgst → stores .vgst (((List.range 1024).filter (storeMask o)).map (fun m => (m, BitVec.ofNat 8 (o.vc.toNat / 2 ^ (8 * m)))))) ∧
  (s.globalCheck 1 .r = .ok → ∃ (t : State) (l : GLoad), Gives .pref s t ∧ CtxOnly n s t ∧
    (t.core n).ctx = { x with seq := x.seq + 1, loads := x.loads ++ [l] } ∧ l.dst = .none ∧ l.addr = addr ∧ l.counted = false) ∧
  (s.globalCheck 1 .r ≠ .ok → Gives .pref s s) ∧
  (s.globalCheck 1024 .r = .ok → ∃ t, Gives .vpref s t ∧ t = { s with exts := t.exts }) ∧ (s.globalCheck 1024 .r ≠ .ok → Gives .vpref s s)

/-- R225, R227: a load whose data has arrived lands: its slot, if it still waits for this load, becomes FULL, or POISONED, and LDC falls. -/
def Claims.Landing : Prop := ∀ (s : State) (l : GLoad) (slot : Nat) (sx : Bool),
  let n := s.turn.core
  let x := (s.core n).ctx
  let e := x.sillS.get slot SillS.empty
  x.loads.find? (fun k => k.seq == s.turn.item) = some l → l.todo = [] → l.notBefore ≤ s.cycle (n / 16) → l.dst = .scalar slot sx →
  l.counted = true → e.st = .pending → e.seq = l.seq → x.trapSlot = none →
  ∃ t, Gives .loadLanding s t ∧ CtxOnly n s t ∧
    (let y := (t.core n).ctx
     let f := y.sillS.get slot SillS.empty
     f.st = (if l.poison then SlotSt.poisoned else .full) ∧
     (if sx then f.val = sext64 (ofBytes l.bytes) (8 * l.size) else f.val = zext64 (ofBytes l.bytes) (8 * l.size)) ∧
     (∀ j, j ≠ slot → y.sillS.get j SillS.empty = x.sillS.get j SillS.empty) ∧ y.ldc.toNat = x.ldc.toNat - 1 ∧
     (∀ k, k ∈ y.loads ↔ k ∈ x.loads ∧ k.seq ≠ l.seq) ∧ y = { x with sillS := y.sillS, ldc := y.ldc, loads := y.loads })

/-- R229, R231, R278, R279: what becomes of a written line. It leaves the write-combining buffer in WC_LINE_WRITEOUT; the MEM makes it,
and its stores count down in STC once no byte of them is held; or refuses it, and it waits in the replay queue, as does a line behind a
parked one of its extent; a store refused for good is discarded without being made, and the first release point issued while it was parked
takes note of it. -/
def Claims.StoreOuts : Prop := ∀ (s : State) (k : Nat),
  let n := s.turn.core
  let c := s.core n
  let made : Instr → WcOut → Core → Prop := fun i o c' =>
    s.bins = [] → s.storeAnswer o = .made → c.ctx.crew = o.crew → c.mode ≠ .idle →
    ∃ t, Gives i s t ∧ t.mem = Memory.writeCells s.mem o.cells ∧ (∀ m, m ≠ n → t.core m = s.core m) ∧
      (let y := t.core n
       y.outs = c'.outs ∧ y.replay = c'.replay ∧ y.wcb = c'.wcb ∧ y.ctx = { c.ctx with stc := y.ctx.stc } ∧
       y.ctx.stc.toNat = c.ctx.stc.toNat - (o.ids.eraseDups.filter (fun j => !c'.holdsStore o.crew j)).length)
  s.turn.item = k →
  (∀ l, c.replay.length < 8 → c.wcb[k]? = some l → Gives .wcLineWriteout s (withCore s
    (let o : WcOut := { crew := c.ctx.crew, h := l.h, off := l.off, cells := l.cells, ids := l.ids, parked := none, permanent := false }
     { c with wcb := c.wcb.eraseIdx k, outs := c.outs ++ [o] }))) ∧
  (8 ≤ c.replay.length → Gives .wcLineWriteout s (withCore s c)) ∧
  (∀ o, c.outs[k]? = some o → s.behindParked c o = false → made .storeAck o { c with outs := c.outs.eraseIdx k }) ∧
  (∀ o, c.outs[k]? = some o → s.behindParked c o = true ∨ s.storeAnswer o = .refused → c.replay.length < 8 → ∃ t, Gives .storeAck s t ∧ t.mem = s.mem ∧
    (t.core n).outs = c.outs.eraseIdx k ∧ (t.core n).replay = c.replay ++ [{ o with parked := some (s.tick, s.tick), permanent := false }]) ∧
  (∀ o, c.replay[k]? = some o → made .storeReplayRetry o { c with replay := c.replay.eraseIdx k }) ∧
  (∀ o, c.replay[k]? = some o → s.storeAnswer o = .refused → ∃ t, Gives .storeReplayRetry s t ∧ t.mem = s.mem ∧
    (t.core n).replay = c.replay.set k { o with parked := o.parked.map (fun p => (p.1, s.tick)) }) ∧
  (∀ o, c.replay[k]? = some o → c.ctx.crew = o.crew → c.mode ≠ .idle → c.preempt = none →
    ∃ t, Gives .unresolvedStoreDiscard s t ∧ t.mem = s.mem ∧ (t.core n).replay = c.replay.eraseIdx k ∧
      (c.ctx.slotOps = [] → (t.core n).ctx.unresolved = some (c.ctx.unresolved.getD (o.off, o.h))) ∧
      ∀ j, c.ctx.slotOps.find? (fun j => j.parked.any (fun i => o.ids.contains i)) = some j →
        (t.core n).ctx.noted = c.ctx.noted ++ [(j.seq, o.off, o.h)] ∧ (t.core n).ctx.unresolved = c.ctx.unresolved) ∧
  (∀ f, c.freeze = some f → Gives .memTimeout s (s.stopIssue n
    (.fault (strandFault cMEM_TIMEOUT s.turn.slot c.ctx.pc (BitVec.ofNat 64 f.2) 0))))

/-- R54, R216, R217, R219, R233-R236, R240, R257, R422: scratch accesses outside shared scratch: what they do; and what the check of any scratch
access finds. That a trap inside a handler is DOUBLE_TRAP where TVEC is 0 as well is log 74, and which load meets poison is log 24. -/
def Obligations.ScratchLoadsAndStores : Prop := Claims.ScratchMoves ∧ Claims.ScratchFaults

/-- R225-R231, R278, R279: how a global load lands and what becomes of a written line. -/
def Obligations.LoadsLandAndStoresReachMemory : Prop := Claims.Landing ∧ Claims.StoreOuts

/-- R270, R276, R277, R333, R375: latch, fence, FLUSH and SIGWT operations as they issue. Each makes the slot that it names PENDING and waits; a
request that R276 refuses will land 0; REL and XFENCE also send out every line of the write-combining buffer. REL waits for the update stream
where it is attached to a region of a buffer bound to the latch or holds a pair emitted into one (log 89). Memory, latches, flags and every
other slot stay. -/
def Obligations.SlotOperationsIssue : Prop := ∀ (s : State) (i : Instr) (try_ : Bool),
  let n := s.turn.core
  let c := s.core n
  let x := c.ctx
  let o := s.turn.ops
  let waits : Instr → Nat → SlotWait → Prop := fun i slot w => ∃ (t : State) (k : SlotOp), Gives i s t ∧
    t = { s with cores := t.cores, bufs := t.bufs, pins := t.pins } ∧ (∀ m, m ≠ n → t.core m = s.core m) ∧
    (let y := (t.core n).ctx
     y = { x with
       seq := x.seq + 1, slotOps := x.slotOps ++ [k], sillS := y.sillS, unresolved := y.unresolved, carry := y.carry, noted := y.noted } ∧
     k.seq = x.seq + 1 ∧ k.slot = slot ∧ k.wait = w ∧ k.notBefore = s.cycle (n / 16) + 8 ∧
     (y.sillS.get slot SillS.empty).st = .pending ∧ (y.sillS.get slot SillS.empty).seq = x.seq + 1 ∧
     ∀ j, j ≠ slot → y.sillS.get j SillS.empty = x.sillS.get j SillS.empty)
  let slotB := o.b.toNat % 2 ^ 5
  let limit : Nat → Nat := fun t => if t = 0 ∨ 150000 < t then 150000 else t
  let stamps : List (Nat × Nat) := s.strandEntries n x.crew
  ((i, try_) ∈ [(Instr.acq, false), (.tacq, true)] → Passes i s →
    waits i slotB (if x.refusesLatch (o.a.toNat % 2 ^ 16) then .code 0
      else .acq (o.a.toNat % 2 ^ 16) (o.b.getLsbD 6) try_ (s.tick + limit (o.c.toNat % 2 ^ 18)) false 0)) ∧
  (∃ fl, waits .rel slotB (.rel (o.a.toNat % 2 ^ 16) fl (if o.b.getLsbD 5 then stamps.map (fun p => p.1) else [])) ∧
    (let bound : Handle → Prop := fun h => o.a.toNat % 2 ^ 16 ≠ 0 ∧ (s.buf (h.toNat / 2 ^ 40)).latch.toNat = o.a.toNat % 2 ^ 16
     fl = true ↔ (∃ h r, x.upd.att = some (h, r) ∧ bound h) ∨ ∃ e p, e ∈ x.upd.entries ∧ p ∈ e ∧ bound p.h)) ∧
  (c.replay.length < 8 → ∃ t, Gives .rel s t ∧ (t.core n).wcb = []) ∧
  waits .fence slotB .fence ∧
  (∃ from_ to_ ids, waits .xfence slotB (.xfence from_ to_ ids) ∧ from_.toNat = o.a.toNat % 2 ^ 8 ∧ to_.toNat = o.a.toNat / 2 ^ 8 % 2 ^ 8) ∧
  (c.replay.length < 8 → ∃ t, Gives .xfence s t ∧ (t.core n).wcb = []) ∧
  waits .flush (o.a.toNat % 2 ^ 5) .flush ∧
  (Passes .sigwt s → waits .sigwt slotB
    (.sigwt (hAddr o.h o.a.toNat) (o.b.toNat / 2 ^ 5 % 2 ^ 3) o.c (s.tick + limit (o.b.toNat / 2 ^ 32 % 2 ^ 32)))) ∧
  (Passes .sigrd s → ∃ (t : State) (l : GLoad), Gives .sigrd s t ∧ CtxOnly n s t ∧ (t.core n).ctx.loads = x.loads ++ [l] ∧ l.size = 8 ∧
    l.addr = hAddr o.h o.a.toNat ∧ l.dst = .scalar slotB false ∧ (t.core n).ctx.ldc = x.ldc + 1 ∧
    ((t.core n).ctx.sillS.get slotB SillS.empty).st = .pending)

/-- R276, R277, R362: a latch is granted to the head of its queue when it is free, or shared with a shared holder: the request's strand holds it,
its code is 1, or 2 after an aborted holder, and no line of a region bound to the latch stays in its core's read cache; an ACQ whose time has
passed will land 0, and a TACQ has no timeout. -/
def Claims.LatchGrant : Prop := ∀ (s : State) (r : LatchReq) (rest : List LatchReq),
  let l := s.latch s.turn.item
  let x := (s.core r.core).ctx
  let num := s.turn.item % 65536
  l.wq = r :: rest →
  (l.mode = 0 ∨ l.mode = 1 ∧ r.shr = true →
    ∃ t, Gives .latchGrant s t ∧ t.mem = s.mem ∧
      t.latch s.turn.item = { mode := if r.shr then 1 else 2, abh := false, holders := l.holders ++ [(r.core, r.crew)], wq := rest } ∧
      (∀ k, k ≠ s.turn.item → t.latch k = s.latch k) ∧ (∀ m, m ≠ r.core → t.core m = s.core m) ∧
      (∀ a, a ∈ (t.core r.core).rcache ↔ a ∈ (s.core r.core).rcache ∧ (s.buf (a.line * 64 / 2 ^ 40)).latch.toNat ≠ num) ∧
      ((s.core r.core).mode ≠ .idle → x.crew = r.crew → (t.core r.core).ctx = { x with
        latches := x.latches ++ [(num, r.shr)],
        slotOps := x.slotOps.map (fun k => if k.seq = r.seq then
          (match k.wait with
           | .acq a b c d e _ => { k with wait := .acq a b c d e (if l.abh then 2 else 1) }
           | _ => k) else k) })) ∧
  (l.mode = 2 ∨ l.mode = 1 ∧ r.shr = false → Gives .latchGrant s s)

/-- R276, R277, R362, R375: a landing puts the code of its operation into its slot, unresolved where a store was noted, and REL then gives the
latch up, and XFENCE with CORE in TO empties the read cache; a granted request lands the code of its grant and REL of latch 0 lands 0.
A SIGWT lands 1 when the signal compares, POISONED when its granule is, and, once its time has passed, 0. -/
def Claims.SlotLanding : Prop := ∀ (s : State) (k : SlotOp),
  let n := s.turn.core
  let c := s.core n
  let x := c.ctx
  let crew := s.turn.crew
  let becomes : Instr → Word → Prop := fun i v => ∃ t, Gives i s t ∧ t.mem = s.mem ∧
    (t.core n).ctx = { x with slotOps := x.slotOps.map (fun j => if j.seq = k.seq then { j with wait := .code v } else j) }
  let waits : Instr → Prop := fun i => ∃ t, Gives i s t ∧ t = { s with exts := t.exts }
  let lands : Word → SlotSt → (State → Prop) → Prop := fun code st f => ∃ t, Gives .latchFenceLanding s t ∧ t.mem = s.mem ∧ f t ∧
    (let y := (t.core n).ctx
     let e := y.sillS.get k.slot SillS.empty
     e.val = code ∧ e.st = (match k.bad with
       | none => st
       | some b => .unresolved b.1 b.2) ∧
     (∀ j, j ≠ k.slot → y.sillS.get j SillS.empty = x.sillS.get j SillS.empty) ∧
     (∀ j, j ∈ y.slotOps ↔ j ∈ x.slotOps ∧ j.seq ≠ k.seq) ∧
     y = { x with sillS := y.sillS, slotOps := y.slotOps, latches := y.latches })
  let here : Prop := k.notBefore ≤ s.cycle (n / 16) ∧ x.trapSlot = none ∧ (x.sillS.get k.slot SillS.empty).st = .pending ∧
    (x.sillS.get k.slot SillS.empty).seq = k.seq
  c.mode ≠ .idle → c.preempt = none → x.crew = crew → x.slotOps.find? (fun k => k.seq == s.turn.item) = some k →
  (∀ l sh d sent, k.wait = .acq l sh false d sent 0 → (d ≤ s.tick → becomes .acqTimeout 0) ∧ (s.tick < d → Gives .acqTimeout s s)) ∧
  (∀ l sh d sent, k.wait = .acq l sh true d sent 0 → Gives .acqTimeout s s) ∧
  (∀ l sh tr d sent g, k.wait = .acq l sh tr d sent g → s.slotCode n crew x k = if g = 0 then none else some (BitVec.ofNat 64 g)) ∧
  (∀ fl ids code, k.wait = .rel 0 fl ids → s.slotCode n crew x k = some code → code = 0) ∧
  (∀ l ids, k.wait = .rel l true ids → (∃ e p, e ∈ x.upd.entries ∧ p ∈ e ∧ p.seq < k.seq) → s.slotCode n crew x k = none) ∧
  (∀ l fl ids, k.wait = .rel l fl ids → c.storesBefore crew k.seq = true → s.slotCode n crew x k = none) ∧
  ((∀ a cmp v d, k.wait ≠ .sigwt a cmp v d) →
    (s.slotCode n crew x k = none ∨ s.cycle (n / 16) < k.notBefore → Gives .latchFenceLanding s s) ∧
    (∀ code, s.slotCode n crew x k = some code → here → lands code (if k.wait = .poisoned then .poisoned else .full) (fun t =>
      (∀ l fl ids, k.wait = .rel l fl ids → code = 1 → ∀ p, p ∈ (t.core n).ctx.latches ↔ p ∈ x.latches ∧ p.1 ≠ l) ∧
      ((∀ l fl ids, k.wait ≠ .rel l fl ids) → (t.core n).ctx.latches = x.latches) ∧
      (∀ f b ids, k.wait = .xfence f b ids → b.getLsbD 0 = true → (t.core n).rcache = []))) ∧
    (k.wait = .fence → c.storesBefore crew k.seq = true → Gives .latchFenceLanding s s)) ∧
  (∀ a cmp v d, k.wait = .sigwt a cmp v d → s.bins = [] →
    let holds := sigCompare cmp (BitVec.ofNat 64 (ofBytes (Memory.readN s.mem a 8))) v
    (Readable s a 8 → holds = true → becomes .sigwtTimeout 1 ∧ (here → lands 1 .full (fun _ => True))) ∧
    (Readable s a 8 → holds = false → waits .latchFenceLanding ∧ (d ≤ s.tick → becomes .sigwtTimeout 0) ∧ (s.tick < d → waits .sigwtTimeout)) ∧
    (¬ Readable s a 8 → here → lands 0 .poisoned (fun _ => True)))

/-- R276, R277, R362, R375: latches are granted in order, and slots land. -/
def Obligations.LatchGrantAndLanding : Prop := Claims.LatchGrant ∧ Claims.SlotLanding

/-- R54, R112, R368-R370: a wait holds its bundle in issue from the clock in which it issues. When its condition holds it ends with F 1, and
when its time has passed with F 0 and TOUT set; the bundle's other moves and triggers take effect then, and D and F follow in the next
clock. With TOEN the timed-out wait then raises WAIT_TIMEOUT; where the strand cannot take that trap it is a fault and the bundle has no effect. -/
def Obligations.WaitsHoldAndEnd : Prop := ∀ s : State,
  let n := s.turn.core
  let c := s.core n
  let x := c.ctx
  let o := s.turn.ops
  let holds : Instr → WaitCond → Prop := fun i w => ∃ t h, Gives i s t ∧ t = { s with cores := t.cores } ∧
    (∀ m, m ≠ n → t.core m = s.core m) ∧ t.core n = { c with mode := .hold, hold := some h } ∧
    h.wait = some { cond := w, condWord := o.a, timeout := o.c.toNat % 2 ^ 32, startTick := s.tick, slot := s.turn.slot } ∧
    (∀ g, c.hold = some g → h = { g with wait := h.wait })
  let ended : Hold → State → Word → Word → Prop := fun h t d f => (t.core n).hold = none ∧ HeldEffect s t n h ∧
    t = { s with cores := t.cores, agenda := t.agenda } ∧ (∀ m, m ≠ n → t.core m = s.core m) ∧
    (t.core n).ctx.swin = x.swin ∧ (t.core n).ctx.kwin = x.kwin ∧
    ∃ e, (t.core n).inflight = c.inflight ++ [e] ∧ e.fu = .syn ∧ e.writes = [(0, .s d), (1, .s f)] ∧ e.due = c.age + 1
  holds .waitc (.counters o.a) ∧ holds .waitt (.tags o.a (o.b.getLsbD 0)) ∧
  (Passes .waitv s → holds .waitv (.records s.waitRecords (o.b.getLsbD 0) o.h)) ∧
  (∀ h w, c.hold = some h → h.wait = some w → h.alloc = none → h.born < s.now →
    ((s.waitCond n w).1 = true → ∃ t, Gives .waitEnd s t ∧ ended h t (s.waitCond n w).2 1 ∧ (t.core n).mode = .hold ∧
      (t.core n).ctx.tout = x.tout) ∧
    ((s.waitCond n w).1 = false → Gives .waitEnd s s) ∧
    (w.timeout ≠ 0 → w.startTick + w.timeout ≤ s.tick → x.vctl.getLsbD 14 = false →
      ∃ t, Gives .waitTimeout s t ∧ ended h t (s.waitCond n w).2 0 ∧ (t.core n).mode = .hold ∧ (t.core n).ctx.tout = true) ∧
    (w.timeout ≠ 0 → w.startTick + w.timeout ≤ s.tick → x.vctl.getLsbD 14 = true → x.inTrap ≠ (x.tvec == 0) →
      ∃ f, Gives .waitTimeout s (s.stopIssue n (.fault f)) ∧ f.code = (if x.inTrap then cDOUBLE_TRAP else cTRAP_UNHANDLED) ∧
        f.bidx = h.bidx.toNat % 8192 ∧ f.slot = w.slot) ∧
    (w.timeout ≠ 0 → w.startTick + w.timeout ≤ s.tick → x.vctl.getLsbD 14 = true → x.inTrap = false → x.tvec ≠ 0 →
      ∃ t, Gives .waitTimeout s t ∧ ended h t (s.waitCond n w).2 0 ∧ (t.core n).ctx.tout = true ∧ (t.core n).mode = .drain (.trap
        { cause := 0x03, fu := 0x08, info0 := h.bidx, info1 := w.condWord, info2 := BitVec.ofNat 64 w.timeout,
          ret := (h.bidx + 1).setWidth 13 })) ∧
    (w.timeout = 0 ∨ s.tick < w.startTick + w.timeout → Gives .waitTimeout s s))

/-- R371-R373: FFR takes the lowest tag bit that its mask selects and clears it; a flag operation reads the old value, and FLSET and FLADD
write the flag, FLADD clamped to 0 to 65,535 with F telling that it was; a remote FLADD leaves the chiplet and is counted in PRC until it
arrives. No other flag changes. -/
def Obligations.FlagsAndTags : Prop := ∀ s : State,
  let n := s.turn.core
  let x := (s.core n).ctx
  let o := s.turn.ops
  let site := n / 16
  let key := s.flagKey x.crew (o.a.toNat % 2 ^ 9)
  let old := s.flags.get key 0
  let inc : Int := (o.b.setWidth 16).toInt
  let sum : Int := old.toNat + inc
  let answers : State → Word → Word → Prop := fun t d f =>
    (t.core n).inflight = (s.core n).inflight ++ [flight s .syn 1 [(0, .s d), (1, .s f)] 0 0 0 false] ∧ t.mem = s.mem
  let flagOnly : State → Nat → BitVec 16 → Prop := fun t k v => t.flags.get k 0 = v ∧ ∀ j, j ≠ k → t.flags.get j 0 = s.flags.get j 0
  (x.tags &&& o.a = 0 → Gives .ffr s (started s .syn 1 [(0, .s 64), (1, .s 0)])) ∧
  (x.tags &&& o.a ≠ 0 → ∃ (t : State) (k : Nat), Gives .ffr s t ∧ k < 64 ∧ (x.tags &&& o.a).getLsbD k = true ∧
    (∀ j, j < k → (x.tags &&& o.a).getLsbD j = false) ∧ answers t (BitVec.ofNat 64 k) 1 ∧
    ∀ j, (t.core n).ctx.tags.getLsbD j = (x.tags.getLsbD j && decide (j ≠ k))) ∧
  (Passes .flrd s → Gives .flrd s (started s .syn 1 [(0, .s (old.setWidth 64)), (1, .s 0)])) ∧
  (Passes .flset s → ∃ t, Gives .flset s t ∧ answers t (old.setWidth 64) 0 ∧ flagOnly t key (o.b.setWidth 16)) ∧
  (Passes .fladd s → o.a.getLsbD 32 = false → ∃ t v, Gives .fladd s t ∧ flagOnly t key v ∧
    (v.toNat : Int) = max 0 (min 65535 sum) ∧ answers t (old.setWidth 64) (if 0 ≤ sum ∧ sum ≤ 65535 then 0 else 1)) ∧
  (o.a.getLsbD 32 = true → ∃ (t : State) (r : RemoteInc), Gives .fladd s t ∧ answers t 0 0 ∧ t.flags = s.flags ∧ t.remotes = s.remotes ++ [r] ∧
    r.crew = o.a.toNat / 2 ^ 16 % 2 ^ 16 ∧ r.idx = o.a.toNat % 2 ^ 9 ∧ r.inc = inc ∧ r.fromSite = site ∧
    t.prc.get site 0 = s.prc.get site 0 + 1 ∧ ∀ j, j ≠ site → t.prc.get j 0 = s.prc.get j 0) ∧
  (∀ r c, s.remotes[s.turn.item]? = some r → s.crews.find r.crew = some c → c.part = r.fromPart → r.idx < c.flagLen → c.st ≠ .out →
    ∃ (t : State) (v : BitVec 16), Gives .remoteFladdArrival s t ∧ flagOnly t (s.flagKey r.crew r.idx) v ∧
      (v.toNat : Int) = max 0 (min 65535 ((s.flags.get (s.flagKey r.crew r.idx) 0).toNat + r.inc)) ∧
      t.remotes = s.remotes.eraseIdx s.turn.item ∧ t.mem = s.mem ∧ (t.prc.get r.fromSite 0).toNat = (s.prc.get r.fromSite 0).toNat - 1)

/-- R294, R297, R298, R304: PUSH and PUSHT place a word with its handles in the queue that the selector is bound to, or behind the core's
earlier words in its elastic buffer, count it in CPC or TLC, and answer in D whether it waits there; a selector that is bound to nothing
is ILLEGAL_CMD; QFREE reports the free entries; the oldest waiting word moves into a free entry. -/
def Obligations.EngineQueuePushes : Prop := ∀ (s : State) (i : Instr) (tag : Bool),
  let n := s.turn.core
  let x := (s.core n).ctx
  let o := s.turn.ops
  let sel := o.a.toNat % 2 ^ 8
  let word : Bits256 := pushWord tag o
  let eng := s.boundEngine x.crew n sel
  ((i, tag) ∈ [(Instr.push, false), (.pusht, true)] →
    (∀ e, eng = some e → Passes i s → ∃ t q, Gives i s t ∧ q.word = word ∧ q.h0 = o.h ∧ q.h1 = o.h1 ∧ q.core = n ∧ q.crew = x.crew ∧
      q.part = x.part ∧ q.node = x.nodeId.toNat ∧
      (let fits := decide ((s.eng e).queue.length < 16) && ((s.eng e).elasticOf n).isEmpty
       (fits = true → t.eng e = { s.eng e with queue := (s.eng e).queue ++ [q] }) ∧
       (fits = false → (t.eng e).elasticOf n = (s.eng e).elasticOf n ++ [q] ∧ (t.eng e).queue = (s.eng e).queue) ∧
       (∀ j, j ≠ e → t.eng j = s.eng j) ∧ t.mem = s.mem ∧
       ∃ f, (t.core n).inflight = (s.core n).inflight ++ [f] ∧ f.fu = .cmd ∧ f.due = (s.core n).age + 2 ∧
         f.writes = toD (if fits then 0 else 1)) ∧
      (if word.toNat / 2 ^ 253 = 0 then (t.core n).ctx.cpc = x.cpc + 1 ∧ (t.core n).ctx.tlc = x.tlc
       else (t.core n).ctx.tlc = x.tlc + 1 ∧ (t.core n).ctx.cpc = x.cpc) ∧
      (isRetAtom word = true → (t.core n).ctx.ldc = x.ldc + 1) ∧ (isRetAtom word = false → (t.core n).ctx.ldc = x.ldc)) ∧
    (eng = none → ∃ f, checkOp i s = .fault f ∧ f.code = cILLEGAL_CMD ∧ f.src = 1 ∧ f.detail.toNat = word.toNat / 2 ^ 192 ∧ f.estat = sel) ∧
    (33 < sel → eng = none) ∧
    (∀ e, eng = some e → 8 ≤ ((s.eng e).elasticOf n).length → checkOp i s = .freeze none)) ∧
  (∀ b, (pushWord true o).getLsbD b = if b = 247 then true else if 238 ≤ b ∧ b < 244 then o.a.getLsbD (8 + (b - 238)) else o.word.getLsbD b) ∧
  pushWord false o = o.word ∧
  (eng = none → Gives .qfree s (started s .cmd 2 (toD 0))) ∧
  (∀ e, eng = some e → (s.eng e).queue.length ≤ 16 → ((s.eng e).elasticOf n).length ≤ 8 → ∃ d : Word, Gives .qfree s (started s .cmd 2 (toD d)) ∧
    d.toNat % 2 ^ 8 + (s.eng e).queue.length = 16 ∧ d.toNat / 2 ^ 8 % 2 ^ 8 + ((s.eng e).elasticOf n).length = 8 ∧ d.toNat / 2 ^ 16 = 1) ∧
  (let e := s.turn.engine
   let back := (s.eng e).off.find? (fun q => s.comesBack e q)
   let moves : QEnt → Prop := fun q => ∃ t, Gives .elasticBufferMove s t ∧ t = { s with engines := t.engines } ∧
     (∀ j, j ≠ e → t.eng j = s.eng j) ∧ (t.eng e).queue = (s.eng e).queue ++ [q] ∧ (t.eng e).cur = (s.eng e).cur
   (∀ q, (s.eng e).queue.length < 16 → back = some q → moves q) ∧
   (∀ c q, (s.eng e).queue.length < 16 → back = none → oldestHead (s.eng e).elastic = some (c, q) → moves q) ∧
   (16 ≤ (s.eng e).queue.length ∨ back = none ∧ oldestHead (s.eng e).elastic = none → Gives .elasticBufferMove s s))

/-- R331-R335: the update stream. OPEN attaches it to the region of the handle's range and answers the operator; EMIT and EMITV append
their pairs and count them in UPC; CLOSE detaches and leaves the pairs; an accepted pair leaves the stream for the bin of its element and
UPC falls. Memory stays: a bin is applied when its element is next accessed, as shown for the 32-bit integer add (R335). -/
def Obligations.UpdateStreams : Prop := ∀ s : State,
  let n := s.turn.core
  let x := (s.core n).ctx
  let o := s.turn.ops
  let esize : Nat → Nat := fun r => uopSize (s.region r).uop.toNat
  let emits : Instr → Handle → Nat → List (Nat × Nat) → Prop := fun i h r ps => Passes i s → ps ≠ [] → ∃ (t : State) (e : List UPair),
    Gives i s t ∧ CtxOnly n s t ∧
    e.map (fun p => (p.off, p.addr, p.region, p.h, p.val.toNat)) = ps.map (fun p => (p.1, hAddr h p.1, r, h, p.2 % 2 ^ 64)) ∧
    (t.core n).ctx = { x with seq := x.seq + 1, upd := { x.upd with entries := x.upd.entries ++ [e] }, upc := x.upc + BitVec.ofNat 16 ps.length }
  (Passes .updOpen s → ∃ t, Gives .updOpen s t ∧ t = { s with cores := t.cores } ∧ (∀ m, m ≠ n → t.core m = s.core m) ∧ (t.core n).ctx.upd = { x.upd with att := s.openRegion.map (fun r => (o.h, r)) } ∧
      (t.core n).inflight = (s.core n).inflight ++
        [flight s .upd 2 (toD ((s.entryAt (n / 16) (o.h.toNat / 2 ^ 40)).uop.setWidth 64)) 0 0 0 false]) ∧
  (∀ h r, x.upd.att = some (h, r) →
    emits .emit h r [(o.a.toNat, o.b.toNat % 2 ^ (8 * esize r))] ∧
    emits .emitv h r (((List.range (o.f.toNat % 2 ^ 9)).filter (fun q => !o.f.getLsbD 12 || o.mask.getLsbD q)).map
      (fun q => (o.a.toNat + elem o.vx 32 q, elem o.vy (8 * esize r) q)))) ∧
  (x.upd.att = none → checkOp .emit s = s.faultHere cCAP_RIGHTS 0 0 ∧ checkOp .emitv s = s.faultHere cCAP_RIGHTS 0 0) ∧
  Gives .close s (withCtx s { x with upd := { x.upd with att := none } }) ∧
  (∀ p, s.turn.engine < 128 → (s.core n).mode ≠ .idle → x.crew = s.turn.crew → firstPair x.upd.entries = some p →
    (s.pairHeld p = true → Gives .pairAccept s s) ∧
    (s.pairHeld p = false → ∃ t, Gives .pairAccept s t ∧ (t.core n).ctx.upd.entries = dropPair x.upd.entries ∧
      (t.core n).ctx.upc.toNat = x.upc.toNat - 1) ∧
    (∀ b, s.pairHeld p = false → s.bins.find p.addr = some b → b.count < 2 ^ 40 → ∃ t, Gives .pairAccept s t ∧ t.mem = s.mem ∧
      t.bins.find p.addr = some (b.take p.val.toNat s.stamp) ∧ (t.core n).ctx.upd.entries = dropPair x.upd.entries ∧
      (t.core n).ctx.upc.toNat = x.upc.toNat - 1)) ∧
  (∀ (a : Nat) (b : Bin), s.bins = [(a, b)] → b.uop = 1 → b.count ≠ 0 → Memory.wf s.mem = true → s.bufPoisoned a 4 = false →
    let r := s.readBuf a 4
    r.1 = (toBytes ((ofBytes (Memory.readN s.mem a 4) + b.val.toNat) % 2 ^ 32) 4, false) ∧ r.2.bins = [])

/-- R244-R246: the stream loader. SOPEN sets the descriptor, SSTART runs it, each generated entry asks for its bytes until the queue holds
64 or the count is reached, and none is generated under a cut; entries land in order of their places, SPOP takes the oldest landed one with F 1 and gives 0 with F 0 where
none has landed, SSTAT reports and SCLOSE discards. -/
def Obligations.StreamLoader : Prop := ∀ s : State,
  let n := s.turn.core
  let c := s.core n
  let x := c.ctx
  let st := x.stream
  let o := s.turn.ops
  let streamOnly : State → Prop := fun t => CtxOnly n s t ∧
    (t.core n).ctx = { x with stream := (t.core n).ctx.stream, loads := (t.core n).ctx.loads, seq := (t.core n).ctx.seq }
  (Passes .sopen s → ∃ t, Gives .sopen s t ∧ streamOnly t ∧ (t.core n).ctx.stream =
    { Stream.none with
      hasDesc := true, h := o.h, base := o.a.toNat % 2 ^ 48, stride := o.b.setWidth 32, pitch := (o.b >>> 32).setWidth 32,
      count := o.c.toNat % 2 ^ 32, inner := o.c.toNat / 2 ^ 32 % 2 ^ 16, esize := o.f.setWidth 2, sx := o.f.getLsbD 2, epoch := st.epoch + 1 }) ∧
  (st.st = .closed → st.hasDesc = true →
    Gives .sstart s (withCtx s { x with stream := { st with st := if st.count = 0 then .done else .running } })) ∧
  (st.st ≠ .closed ∨ st.hasDesc = false → Gives .sstart s (withCtx s x)) ∧
  (∃ t, Gives .sclose s t ∧ streamOnly t ∧ (t.core n).ctx.stream = { Stream.none with epoch := st.epoch + 1 } ∧
    ∀ l, l ∈ (t.core n).ctx.loads → ∀ p e, l.dst ≠ .stream p e) ∧
  (Passes .spop s → (∀ v rest, st.queue = .landed v :: rest → ∃ (t : State) (d : Word), Gives .spop s t ∧ t.mem = s.mem ∧
      (t.core n).ctx.stream = { st with queue := rest, q := st.q + 1 } ∧
      (t.core n).inflight = c.inflight ++ [flight s .str 2 [(0, .s d), (1, .s 1)] 0 0 0 false] ∧
      d = (if st.sx then sext64 v.toNat (8 * 2 ^ st.esize.toNat) else zext64 v.toNat (8 * 2 ^ st.esize.toNat))) ∧
    ((∀ v rest, st.queue ≠ .landed v :: rest) → Gives .spop s (started s .str 2 [(0, .s 0), (1, .s 0)]))) ∧
  (∃ d : Word, Gives .sstat s (started s .str 2 (toD d)) ∧ (st.queue.length ≤ 64 → d.toNat % 2 ^ 7 = readyCount st.queue) ∧
    (st.queue.length ≤ 64 → d.toNat / 2 ^ 32 = st.q % 2 ^ 32 ∧ (d.getLsbD 7 = true ↔ st.st = .running) ∧ (d.getLsbD 8 = true ↔ st.st = .done) ∧
      (d.getLsbD 9 = true ↔ st.st = .stopped) ∧ (d.getLsbD 10 = true ↔ st.st ≠ .closed))) ∧
  (s.underCut x.crew = true → Gives .streamGenerate s s) ∧
  (st.st = .running → st.g - st.q < 64 → st.g < st.count → s.underCut x.crew = false →
    let size := 2 ^ st.esize.toNat
    let i : Int := if st.inner = 0 then st.g else (st.g % st.inner : Nat)
    let j : Int := if st.inner = 0 then 0 else (st.g / st.inner : Nat)
    let off : Int := st.base + i * st.stride.toInt + j * st.pitch.toInt
    (∀ code, s.capCheck (n / 16) (s.rcbOf x.crew) (some x.nodeId.toNat) st.h off size .r = some code →
      Gives .streamGenerate s (withCtx s { x with stream := { st with st := .stopped, fault := some (code, st.g) } })) ∧
    (s.capCheck (n / 16) (s.rcbOf x.crew) (some x.nodeId.toNat) st.h off size .r = none → ∃ (t : State) (l : GLoad),
      Gives .streamGenerate s t ∧ streamOnly t ∧ (t.core n).ctx.loads = x.loads ++ [l] ∧ l.addr = hAddr st.h off.toNat ∧ l.size = size ∧
      l.dst = .stream st.g st.epoch ∧ l.counted = false ∧
      (t.core n).ctx.stream = { st with
        g := st.g + 1, queue := st.queue ++ [.flying], st := if st.g + 1 = st.count then .done else .running })) ∧
  (∀ l p, x.loads.find? (fun k => k.seq == s.turn.item) = some l → l.todo = [] → l.notBefore ≤ s.cycle (n / 16) → l.counted = false →
    l.dst = .stream p st.epoch → st.q ≤ p → p < st.g → ∃ t, Gives .streamEntryLand s t ∧ streamOnly t ∧
      (t.core n).ctx.stream = { st with
        queue := st.queue.set (p - st.q) (if l.poison then .poisoned else .landed (BitVec.ofNat 64 (ofBytes l.bytes))) })

/-- R46, R61, R124, R296, R299: an engine's entry whose check fails stops its engine for its partition with the check's code, and memory
stays; a command with a zero length or count completes at once without a check; TAG_COMPLETION ends an entry that has run, lowers its
counter and sets its tag. The entry of a crew that an abort has ended stops nothing (R65). -/
def Obligations.EntriesStopAndComplete : Prop := ∀ (s : State) (a : Act) (c : ExecEnt) (r : EngErr) (hd : TcHdr),
  let e := s.turn.engine
  let stops : Instr → (State → QEnt → Option EngErr) → Prop := fun i chk => chk s a.ent = some r → Gives i s (s.stopEntry e r)
  let ends : Instr → Prop := fun i => Gives i s (s.finishEntry e)
  (s.eng e).cur = some c → c.act = a →
  (a.checked = false →
    (∀ b, b.len ≠ 0 → b.nrows ≠ 0 → stops (.copy hd b) (copyChk b)) ∧ (∀ b, b.len = 0 ∨ b.nrows = 0 → ends (.copy hd b)) ∧
    (∀ b, b.len ≠ 0 → b.nidx ≠ 0 → stops (.copyx hd b) (copyxChk b)) ∧ (∀ b, b.len = 0 ∨ b.nidx = 0 → ends (.copyx hd b)) ∧
    (∀ b, b.len ≠ 0 → stops (.fill hd b) (fillChk b)) ∧ (∀ b, b.len = 0 → ends (.fill hd b)) ∧
    (∀ b, b.len ≠ 0 → b.nrows ≠ 0 → stops (.accw hd b) (accwChk b)) ∧ (∀ b, b.len = 0 ∨ b.nrows = 0 → ends (.accw hd b)) ∧
    (∀ b, stops (.atom hd b) (atomChk b)) ∧
    (∀ b, b.rows ≠ 0 → b.rlen ≠ 0 → stops (.mloadw hd b) (mloadChk e 0 b) ∧ stops (.mloada hd b) (mloadChk e 1 b)) ∧
    (∀ b, b.rows = 0 ∨ b.rlen = 0 → ends (.mloadw hd b) ∧ ends (.mloada hd b)) ∧
    (∀ b, b.k ≠ 0 → stops (.mmul hd b) (mmulChk e b)) ∧ (∀ b, b.k = 0 → ends (.mmul hd b)) ∧
    (∀ b, b.rows ≠ 0 → stops (.mstore hd b) (mstoreChk e b)) ∧ (∀ b, b.rows = 0 → ends (.mstore hd b)) ∧
    (∀ b, b.rows ≠ 0 → stops (.mepi hd b) (mepiChk e b)) ∧ (∀ b, b.rows = 0 → ends (.mepi hd b)) ∧
    (∀ b, b.ni ≠ 0 → stops (.wload hd b) (wloadChk b)) ∧ (∀ b, b.ni = 0 → ends (.wload hd b)) ∧
    (∀ b, stops (.wrun hd b) (wrunChk e b)) ∧ (∀ b, stops (.isect hd b) (isectChk b)) ∧
    (∀ b, stops (.uopen hd b) (uopenChk b)) ∧ stops (.uclose hd) regionChk) ∧
  (let t := s.finishEntry e
   t = { s with engines := t.engines, agenda := .run (Turn.forEntry e c.main.ent) .tagCompletion :: s.agenda } ∧
     t.eng e = { s.eng e with cur := some { c with done := true } } ∧ ∀ j, j ≠ e → t.eng j = s.eng j) ∧
  (Live s a.ent → EntryStops s (s.stopEntry e r) r.code r.estat ∧ a.ent.part ∈ ((s.stopEntry e r).eng e).frozenParts) ∧
  (a.ent.pkt = none → s.crews.find a.ent.crew = none →
    let t := s.stopEntry e r
    t = { s with engines := t.engines } ∧ t.eng e = { s.eng e with cur := none } ∧ ∀ j, j ≠ e → t.eng j = s.eng j) ∧
  (c.done = false → Gives .tagCompletion s s) ∧
  (c.done = true → c.sub = none → a.ent.pkt = none → a.ent.chain = none → engClass e ≠ 1 →
    (s.core a.ent.core).mode ≠ .idle → (s.core a.ent.core).ctx.crew = a.ent.crew →
    ∃ t, Gives .tagCompletion s t ∧ t.mem = s.mem ∧ (t.eng e) = { s.eng e with cur := none } ∧
      (let x := (s.core a.ent.core).ctx
       let y := (t.core a.ent.core).ctx
       let copy := decide (a.ent.word.toNat / 2 ^ 248 / 32 = 0)
       y = { x with tags := y.tags, cpc := y.cpc, tlc := y.tlc } ∧
       y.cpc.toNat = x.cpc.toNat - (if copy then 1 else 0) ∧ y.tlc.toNat = x.tlc.toNat - (if copy then 0 else 1) ∧
       (∀ k, y.tags.getLsbD k =
         (x.tags.getLsbD k || (a.ent.word.getLsbD 247 && decide (k = a.ent.word.toNat / 2 ^ 238 % 2 ^ 6))))))

/-- R287, R300-R302: COPY moves one row, COPYX one index and FILL 64 KiB at a time, and every other byte of memory stays; a 64-byte COPY to
a window handle places its packet in that launch queue, or holds it until there is room. -/
def Obligations.CopyEngineMoves : Prop := ∀ (s : State) (hd : TcHdr) (a : Act),
  let q := a.ent
  let p := a.prog
  let sd : Handle → Int → Nat := fun h o => hAddr h o.toNat
  let row : Instr → Nat → Nat → List Byte → Bool → Prop := fun i d n bs last => Writable s d n →
    ∃ t, Gives i s t ∧ EngineOnly s t ∧ Moved s t (p + 1) last ∧ Holds s t d bs
  let bytes : Nat → Nat → List Byte := fun d n => Memory.readN s.mem d n
  s.bins = [] → Memory.wf s.mem = true →
  (∀ b, Ready (copyChk b) s a → b.len ≠ 0 → p < b.nrows.toNat → isWindow q.h1 = false →
    let so := sd q.h0 (b.soff.toNat + b.spitch.toInt * p)
    Readable s so b.len.toNat →
    row (.copy hd b) (sd q.h1 (b.doff.toNat + b.dpitch.toInt * p)) b.len.toNat (bytes so b.len.toNat) (decide (p + 1 = b.nrows.toNat))) ∧
  (∀ b, Ready (copyChk b) s a → b.len ≠ 0 → p < b.nrows.toNat → isWindow q.h1 = true → Readable s (hAddr q.h0 b.soff.toNat) 64 →
    let w := windowQueue q.h1
    let k := (s.part w.1).queue w.2
    let bits : Bits512 := BitVec.ofNat 512 (ofBytes (bytes (hAddr q.h0 b.soff.toNat) 64))
    (k.pkts.length < 64 → ∃ t, Gives (.copy hd b) s t ∧ t.mem = s.mem ∧ Moved s t 0 true ∧ (t.part w.1).queue w.2 = k.accept bits) ∧
    (64 ≤ k.pkts.length → ∃ (t : State) (c : ExecEnt), Gives (.copy hd b) s t ∧ EngineOnly s t ∧ t.mem = s.mem ∧
      (t.eng s.turn.engine).cur = some c ∧ c.window = true ∧ c.act.prog = p)) ∧
  (∀ c, (s.eng s.turn.engine).cur = some c → c.window = true → c.done = false → c.act = a →
    let so := hAddr q.h0 (q.word.toNat / 2 ^ 184 % 2 ^ 48)
    let w := windowQueue q.h1
    let k := (s.part w.1).queue w.2
    Readable s so 64 →
    (k.pkts.length < 64 → ∃ t, Gives .windowCopyEnqueue s t ∧ t.mem = s.mem ∧ Moved s t 0 true ∧
      (t.part w.1).queue w.2 = k.accept (BitVec.ofNat 512 (ofBytes (bytes so 64)))) ∧
    (64 ≤ k.pkts.length → Gives .windowCopyEnqueue s s)) ∧
  (∀ b hx, Ready (copyxChk b) s a → b.len ≠ 0 → p < b.nidx.toNat → s.tableHandle q b.xent.toNat = some hx →
    let xa := hAddr hx (b.ioff.toNat + 4 * p)
    let x := ofBytes (bytes xa 4)
    let len := b.len.toNat
    let so := if b.sct then b.soff.toNat + p * len else b.soff.toNat + x * b.pitch.toNat
    let d := if b.sct then b.doff.toNat + x * b.pitch.toNat else b.doff.toNat + p * len
    let fails := if b.sct then s.entErr q q.h1 d len .w else s.entErr q q.h0 so len .r
    let last := decide (p + 1 = b.nidx.toNat)
    Readable s xa 4 → (∀ g, g ∈ granules xa 4 → (s.ext (s.extAt (g * 64))).st = .hbm) →
    (fails = none → Readable s (hAddr q.h0 so) len → row (.copyx hd b) (hAddr q.h1 d) len (bytes (hAddr q.h0 so) len) last) ∧
    (∀ f, fails = some f → f.code = cCAP_BOUNDS → b.skip = true →
      (b.sct = true → ∃ t, Gives (.copyx hd b) s t ∧ EngineOnly s t ∧ Moved s t (p + 1) last ∧ t.mem = s.mem) ∧
      (b.sct = false → row (.copyx hd b) (hAddr q.h1 d) len (List.replicate len 0) last)) ∧
    (∀ f, fails = some f → (f.code ≠ cCAP_BOUNDS ∨ b.skip = false) → Live s q →
      ∃ t, Gives (.copyx hd b) s t ∧ EntryStops s t f.code 0)) ∧
  (∀ b, Ready (fillChk b) s a → p * 65536 < b.len.toNat →
    let n := min 65536 (b.len.toNat - p * 65536)
    row (.fill hd b) (hAddr q.h1 (b.doff.toNat + p * 65536)) n
      ((List.range n).map (fun i => BitVec.ofNat 8 (b.pat.toNat / 2 ^ (8 * ((p * 65536 + i) % 2 ^ b.pw.toNat)))))
      (decide (b.len.toNat ≤ (p + 1) * 65536)))

/-- R303, R304, R306, R307, R339: ACCW combines a row of its destination with its source element by element; ATOM, SIGOP, SIGADD and SIGSET
change one value as one step, and an ATOM that returns lands the old one in its slot; XFEN waits for its core's earlier copy-class
entries (which ones, the spec leaves to reading: log 37); SIGWAIT completes where its comparison holds, goes on from its progress index
where it does not, and stops with ENGINE 0x301 when its time has passed, whether or not its comparison would then hold (log 21). That
BINC's comparison is exact is log 63. -/
def Obligations.CopyEngineAtomics : Prop := ∀ (s : State) (hd : TcHdr) (a : Act),
  let q := a.ent
  let p := a.prog
  let e := s.turn.engine
  let word : Nat → Nat → Nat := fun d n => ofBytes (Memory.readN s.mem d n)
  let puts : Instr → Nat → List Byte → Prop := fun i d bs => ∃ t, Gives i s t ∧ EngineOnly s t ∧ Moved s t 0 true ∧ Holds s t d bs
  let waits : Instr → Prop := fun i => ∃ t, Gives i s t ∧ t = { s with engines := t.engines, exts := t.exts } ∧ Moved s t p false
  let any : State → QEnt → Option EngErr := fun _ _ => none
  s.bins = [] → Memory.wf s.mem = true →
  (∀ b, Ready (accwChk b) s a → p < b.nrows.toNat → b.len ≠ 0 →
    let ty := etypeOf b.type.toNat
    let w := ty.width / 8
    let so := hAddr q.h0 ((b.soff.toNat : Int) + b.spitch.toInt * p).toNat
    let d := hAddr q.h1 ((b.doff.toNat : Int) + b.dpitch.toInt * p).toNat
    let n := b.len.toNat
    Readable s so n → Readable s d n → Writable s d n → 0 < w → n % w = 0 →
    ∃ t bs, Gives (.accw hd b) s t ∧ EngineOnly s t ∧ Moved s t (p + 1) (decide (p + 1 = b.nrows.toNat)) ∧ bs.length = n ∧ Holds s t d bs ∧
      ∀ i, i < n / w →
        let x := word (so + i * w) w
        let y := word (d + i * w) w
        let r := ofBytes ((bs.drop (i * w)).take w)
        (∀ sg k, ty = .int sg k → b.op = 0 → b.sat = false → (r : Int) % 2 ^ k = (y + x : Int) % 2 ^ k) ∧
        (∀ sg k, ty = .int sg k → b.op = 0 → b.sat = true →
          let lo : Int := if sg then -2 ^ (k - 1) else 0
          let hi : Int := if sg then 2 ^ (k - 1) - 1 else 2 ^ k - 1
          readInt sg k r = max lo (min hi (readInt sg k y + readInt sg k x))) ∧
        (∀ sg k, ty = .int sg k → b.op = 1 → readInt sg k r = min (readInt sg k y) (readInt sg k x)) ∧
        (∀ sg k, ty = .int sg k → b.op = 2 → readInt sg k r = max (readInt sg k y) (readInt sg k x)) ∧
        (∀ f, ty = .fp f → b.op = 0 →
          r = (f.deliver (plainMode b.rnd.toNat) b.sat
            (exactSum (plainMode b.rnd.toNat) [(f.decode y).exact, (f.decode x).exact])).1 % 2 ^ (8 * w)) ∧
        (∀ f, ty = .fp f → b.op ≠ 0 →
          let dy := f.decode y
          let dx := f.decode x
          let less := dy.lt dx || (dy.eq dx && dy.isNeg && !dx.isNeg)
          let more := dx.lt dy || (dy.eq dx && dx.isNeg && !dy.isNeg)
          r = (if dy.isNaN || dx.isNaN then f.canonNaN else if b.op = 2 then (if less then x else y) else (if more then x else y)) % 2 ^ (8 * w))) ∧
  (∀ b, Ready (atomChk b) s a →
    let w := if b.sz then 64 else 32
    let d := hAddr q.h1 b.doff.toNat
    let n := if b.sz ∨ b.aop = 3 then 8 else 4
    let old := word d n % 2 ^ w
    let op := b.opnd.toNat % 2 ^ w
    let cmp := b.cmpv.toNat % 2 ^ w
    let new := match b.aop.toNat with
      | 0 => if old + op ≤ cmp then old + op else old
      | 1 => if cmp ≤ old then 0 else old + 1
      | 2 => old - 1
      | 3 => if old + op ≤ word d n / 2 ^ 32 then old + op else old
      | 4 => op
      | _ => if old = cmp then op else old
    Readable s d n → Writable s d n →
    (isRetAtom q.word = false → puts (.atom hd b) d (toBytes new (w / 8))) ∧
    (isRetAtom q.word = true → q.sill ≠ 0 → q.chain = none →
      let x := (s.core q.core).ctx
      let slot := q.word.toNat / 2 ^ 175 % 2 ^ 5
      (s.core q.core).mode ≠ .idle → x.crew = q.crew → x.trapSlot = none → (x.sillS.get slot SillS.empty).st = .pending →
      (x.sillS.get slot SillS.empty).seq = q.sill →
      ∃ t, Gives (.atom hd b) s t ∧ Moved s t 0 true ∧ Holds s t d (toBytes new (w / 8)) ∧
        (let y := (t.core q.core).ctx
         y = { x with sillS := y.sillS, ldc := y.ldc } ∧ y.ldc.toNat = x.ldc.toNat - 1 ∧ (y.sillS.get slot SillS.empty).st = .full ∧
         (y.sillS.get slot SillS.empty).val.toNat = (if b.aop = 3 then word d n else old)))) ∧
  (∀ (i : Instr) (chk : State → QEnt → Option EngErr) (soff : Nat) (v : Word) (set : Bool),
    ((∃ b : SigopBody, i = .sigop hd b ∧ soff = b.soff.toNat ∧ v = b.val ∧ set = b.op ∧
        chk = fun t q => firstErr [noWindow q, t.entErr q q.h1 b.soff.toNat 8 .w]) ∨
      (∃ b : SigBody, i = .sigadd hd b ∧ soff = b.soff.toNat ∧ v = b.val ∧ set = false ∧ chk = sigChk b.soff.toNat .w) ∨
      (∃ b : SigBody, i = .sigset hd b ∧ soff = b.soff.toNat ∧ v = b.val ∧ set = true ∧ chk = sigChk b.soff.toNat .w)) →
    Ready chk s a →
    let d := hAddr q.h1 soff
    (set = true ∨ Readable s d 8) → Writable s d 8 →
    puts i d (toBytes (if set then v.toNat else (word d 8 + v.toNat) % 2 ^ 64) 8)) ∧
  (∀ b, Ready any s a →
    (xfenWaits b s q = true → waits (.xfen hd b)) ∧
    (xfenWaits b s q = false → ∃ t, Gives (.xfen hd b) s t ∧ EngineOnly s t ∧ Moved s t 0 true ∧ t.mem = s.mem)) ∧
  (∀ b, Ready (sigChk b.soff.toNat .r) s a →
    let d := hAddr q.h1 b.soff.toNat
    let holds := sigCompare b.cmp.toNat (BitVec.ofNat 64 (word d 8)) b.val
    Readable s d 8 →
    (holds = true → ∃ t, Gives (.sigwait hd b) s t ∧ EngineOnly s t ∧ Moved s t 0 true ∧ t.mem = s.mem) ∧
    (holds = false → waits (.sigwait hd b))) ∧
  (∀ c, (s.eng e).cur = some c → c.done = false → c.act = a → Live s q →
    let tout := q.word.toNat / 2 ^ 99 % 2 ^ 18
    (q.word.toNat / 2 ^ 248 = 0xA2 → a.checked = true → tout ≠ 0 → a.start + tout ≤ s.tick →
      ∃ t, Gives .sigwaitTimeout s t ∧ EntryStops s t cENGINE 0x301) ∧
    (tout = 0 ∨ s.tick < a.start + tout → Gives .sigwaitTimeout s s))

/-- R305, R308: a CHAIN fetches its next word, counts it for its pusher and runs it on its own engine, or pushes a word of another class
to selector TQ; it posts the last of them and has run when its last word has been fetched and completed. COLL sends 4 KiB at a time on the
next of its ports that is up, again on the one after where that port has gone down, and goes on when the peer has answered, or stops with
ENGINE 0x104 where no peer can be reached (logs 39, 53); what the peer answers is a free value (log 4). -/
def Obligations.ChainAndColl : Prop := ∀ (s : State) (hd : TcHdr) (c : ExecEnt),
  let e := s.turn.engine
  let q := c.main.ent
  let p := c.main.prog
  (s.eng e).cur = some c → s.bins = [] →
  (∀ b h, c.main.checked = true → s.tableHandle q b.lent.toNat = some h →
    let la := hAddr h (b.loff.toNat + 32 * (if b.rlen = 0 then p else p % b.rlen.toNat))
    let w : Bits256 := BitVec.ofNat 256 (ofBytes (Memory.readN s.mem la 32))
    (c.sub = none → c.ended = false → b.wen = true → s.bufPoisoned (hAddr h b.woff.toNat) 8 = false →
      let v := (s.signalAt (hAddr h b.woff.toNat)).toInt
      (v < 0 → Live s q → ∃ t, Gives (.chain hd b) s t ∧ EntryStops s t cENGINE 0x101) ∧
      (0 ≤ v → v ≤ p → ∃ t, Gives (.chain hd b) s t ∧ EngineOnly s t ∧ Moved s t (c.act).prog false ∧ t.mem = s.mem)) ∧
    (c.sub = none → c.ended = false → chainReady b s h p = .ok true → s.entErr q h (chainOff b p) 32 .r = none → Readable s la 32 →
      w.toNat / 2 ^ 248 ≠ 5 → isRetAtom w = false → s.countRoom q w = true →
      ∃ (t : State) (d : ExecEnt) (f : Act), Gives (.chain hd b) s t ∧ t.mem = s.mem ∧ (t.eng e).cur = some d ∧ d.main.prog = p + 1 ∧
        d.sub = some f ∧ f.ent.word = w ∧ f.ent.h0 = q.h0 ∧ f.ent.h1 = q.h1 ∧ f.ent.core = q.core ∧ f.ent.crew = q.crew ∧
        f.ent.chain = some (e, p) ∧ f.prog = 0 ∧ f.checked = false ∧
        ((s.core q.core).mode ≠ .idle → (s.core q.core).ctx.crew = q.crew →
          let x := (s.core q.core).ctx
          let y := (t.core q.core).ctx
          y = { x with cpc := y.cpc, tlc := y.tlc } ∧
          (if w.toNat / 2 ^ 248 / 32 = 0 then y.cpc.toNat = x.cpc.toNat + 1 ∧ y.tlc = x.tlc
           else y.tlc.toNat = x.tlc.toNat + 1 ∧ y.cpc = x.cpc)) ∧
        (d.ended = true ↔ if b.nent = 0 then w.getLsbD 244 = false else p + 1 = b.nent.toNat)) ∧
    (∀ f k, c.sub = some f → c.done = false → 32 ≤ f.ent.word.toNat / 2 ^ 248 → 16 ≤ b.tq.toNat → b.tq.toNat ≠ 0 →
      s.boundEngine f.ent.crew f.ent.core b.tq.toNat = some k → k ≠ e → (s.eng k).queue.length < 16 → q.word.getLsbD 35 = false →
      ∃ (t : State) (d : ExecEnt), Gives (.chain hd b) s t ∧ t.mem = s.mem ∧ t.eng k = { s.eng k with queue := (s.eng k).queue ++ [f.ent] } ∧
        (t.eng e).cur = some d ∧ d.sub = none ∧ d.main.prog = p ∧ d.done = false) ∧
    (c.sub = none → c.ended = true → c.opens = [] → q.word.getLsbD 35 = false →
      ∃ (t : State) (d : ExecEnt), Gives (.chain hd b) s t ∧ t.mem = s.mem ∧ (t.eng e).cur = some d ∧ d.done = true) ∧
    (∀ g, c.sub = none → c.ended = true → c.opens = [] → q.word.getLsbD 35 = true → c.posted + 1 = p → Memory.wf s.mem = true →
      s.tableHandle q (q.word.toNat / 2 ^ 37 % 2 ^ 11) = some g →
      let pa := hAddr g (q.word.toNat / 2 ^ 48 % 2 ^ 48)
      ∃ (t : State) (d : ExecEnt), Gives (.chain hd b) s t ∧ (t.eng e).cur = some d ∧ d.done = true ∧
        Holds s t pa (toBytes ((ofBytes (Memory.readN s.mem pa 8) + 1) % 2 ^ 64) 8))) ∧
  (∀ b, b.len ≠ 0 → Ready (fun t q => firstErr [noWindow q, t.entErr q q.h0 b.soff.toNat b.len.toNat .r]) s c.act →
    let r := c.act.prog
    let lo := r * 4096
    let n := min 4096 (b.len.toNat - lo)
    let flits := (n + 255) / 256
    let ports := (s.collPorts b).filter (fun k => decide (k < 16))
    -- a unit goes out on the next port that is up, from a place of the list on
    let next : Nat → Option Nat := s.portFrom ports
    let goesOn : State → List Nat → Prop := fun t aux => ∃ d, Moved s t r false ∧ (t.eng e).cur = some d ∧ d.act.aux = aux ∧ t.mem = s.mem
    let sends : Nat → Prop := fun j => ∃ t, Gives (.coll hd b) s t ∧ goesOn t [j] ∧
      t.port (ports.getD j 31) = { s.port (ports.getD j 31) with
        replay := (s.port (ports.getD j 31)).replay + flits, wire := (s.port (ports.getD j 31)).wire + flits } ∧
      ∀ m, m ≠ ports.getD j 31 → t.port m = s.port m
    (s.peerUp b = false → Live s c.act.ent → ∃ t, Gives (.coll hd b) s t ∧ EntryStops s t cENGINE 0x104) ∧
    (∀ j, s.peerUp b = true → c.act.aux = [] → Readable s (hAddr c.act.ent.h0 (b.soff.toNat + lo)) n → next r = some j → sends j) ∧
    (∀ j l, s.peerUp b = true → c.act.aux = j :: l →
      let m := ports.getD j 31
      (∀ i, s.portUp m = false → next (j + 1) = some i → sends i) ∧
      (s.portUp m = true → (s.port m).wire < (s.port m).replay → ∃ t, Gives (.coll hd b) s t ∧ Moved s t r false ∧ t.mem = s.mem ∧
        t.port m = { s.port m with wire := (s.port m).replay }) ∧
      (s.portUp m = true → (s.port m).replay ≤ (s.port m).wire → Live s c.act.ent → ∃ t, Gives (.coll hd b) s t ∧ t.mem = s.mem ∧
        (t.port m).replay = (s.port m).replay - flits ∧
        (Moved s t (r + 1) (decide (b.len.toNat ≤ lo + 4096)) ∨
          ∃ code, 0x20 ≤ code ∧ code ≤ 0x24 ∧ EntryStops s t cENGINE (0x300 + code)))))

/-- R311, R312, R314, R315, R318: an array's lease. A free array goes to the oldest request of the core that follows the last holder, which
completes with RUN; MLEASE and MRELEASE of the holder end it. MLOADW and MLOADA put one row into the partition's share of W or A, a row from
shared scratch once its granules have been served (log 30), and MZERO clears its rows of C; every other byte of memory stays. -/
def Obligations.MatrixLeasesAndLoads : Prop := ∀ (s : State) (hd : TcHdr) (a : Act),
  let e := s.turn.engine
  let q := a.ent
  let p := a.prog
  let k := (e - 128) * 64 + s.turn.part
  let share := s.arrays.get k ArrayShare.zero
  let free : ArrayShare → ArrayShare := fun x => { x with lhold := none, run := 0, last := x.lhold.getD x.last }
  let area : Nat → Nat × Nat := fun buf => s.typedShare (engSite e) (engNum e) buf q.part
  (∀ b, share.lhold = some s.turn.core → Gives (.mlease hd b) s { s with arrays := s.arrays.set k (free share) }) ∧
  (∀ b, share.lhold ≠ some s.turn.core → Gives (.mlease hd b) s s) ∧
  (share.lhold ≠ none → Gives .leaseGrant s s) ∧
  (∀ r, share.lhold = none → s.leasePick e s.turn.part = some r →
    (r ∈ (s.eng e).queue ∧ r.part = s.turn.part ∧ r.word.toNat / 2 ^ 248 = 0x20 ∧
      (∀ x, x ∈ coreHeads ((s.eng e).queue.filter (fun y => y.part == s.turn.part)) → x.word.toNat / 2 ^ 248 = 0x20 →
        x.word.getLsbD 246 = false → (r.core + 255 - share.last) % 256 ≤ (x.core + 255 - share.last) % 256)) ∧
    (r.chain = none → ∃ t, Gives .leaseGrant s t ∧ t.mem = s.mem ∧
      (t.arrays.get k ArrayShare.zero).lhold = some r.core ∧ (t.arrays.get k ArrayShare.zero).run = r.word.toNat / 2 ^ 225 % 2 ^ 7 ∧
      (∀ j, j ≠ k → t.arrays.get j ArrayShare.zero = s.arrays.get j ArrayShare.zero) ∧
      (∀ x, x ∈ (t.eng e).queue ↔ x ∈ (s.eng e).queue ∧ x.stamp ≠ r.stamp))) ∧
  (Ready (fun _ _ => none) s a → q.part = s.turn.part →
    ∃ t, Gives (.mrelease hd) s t ∧ t = { s with engines := t.engines, agenda := t.agenda, arrays := t.arrays } ∧ Moved s t 0 true ∧
      t.arrays.get k ArrayShare.zero = if share.lhold = some q.core then free share else share) ∧
  (s.bins = [] → Memory.wf s.mem = true → ∀ b : MloadBody, b.rlen ≠ 0 → p < b.rows.toNat →
    let row : Nat → List Byte → Nat × Instr → Prop := fun n bs x => bs.length = n → ∃ t, Gives x.2 s t ∧ EngineOnly s t ∧
      Moved s t (p + 1) (decide (p + 1 = b.rows.toNat)) ∧ Holds s t ((area x.1).1 + (b.doff.toNat + p * b.dpitch.toNat)) bs
    ∀ x, x ∈ [(0, Instr.mloadw hd b), (1, Instr.mloada hd b)] → Ready (mloadChk e x.1 b) s a →
      (∀ soff spitch, b.src = .buf soff spitch →
        let so := hAddr q.h0 ((soff.toNat : Int) + spitch.toInt * p).toNat
        Readable s so b.rlen.toNat → row b.rlen.toNat (Memory.readN s.mem so b.rlen.toNat) x) ∧
      (∀ sb rp tp rot rpt, b.src = .shared sb rp tp rot rpt → s.poison = [] →
        let n := b.rlen.toNat / 64
        let c := s.crew q.crew
        let r := p % rpt.toNat
        let grans : List Nat := (List.range n).map (fun g =>
          ssmAddr c.site (c.scr + (sb.toNat + p / rpt.toNat * tp.toNat + r * rp.toNat + 64 * ((g + r * rot.toNat) % n))))
        -- the row's granules are asked for
        (a.aux = [] → ∃ (t : State) (d : ExecEnt) (new : List SsmReq) (g : SsmGroup), Gives x.2 s t ∧ Moved s t p false ∧ t.mem = s.mem ∧
          (t.eng e).cur = some d ∧ d.act.aux = [s.stamp] ∧ t.ssm = s.ssm ++ new ∧ new.map (fun k => k.gran) = grans.map (fun k => k / 64) ∧
          (∀ k, k ∈ new → k.wr = false ∧ k.core = 4096 + e ∧ k.group = s.stamp) ∧
          t.ssmGroups.find s.stamp = some g ∧ g.addrs = grans ∧ g.got = [] ∧ g.left = n) ∧
        -- they come, and then the row is placed
        (∀ id g, a.aux = [id] → s.ssmGroups.find id = some g →
          (g.left ≠ 0 → ∃ t, Gives x.2 s t ∧ t = { s with engines := t.engines } ∧ Moved s t p false) ∧
          (g.left = 0 →
            let bytes := g.addrs.flatMap (fun o => (g.got.filter (fun y => y.1 / 64 == o / 64)).map (fun y => y.2))
            ∃ t, Gives x.2 s t ∧ EngineOnly { s with ssmGroups := t.ssmGroups } t ∧ Moved s t (p + 1) (decide (p + 1 = b.rows.toNat)) ∧
              Holds s t ((area x.1).1 + (b.doff.toNat + p * b.dpitch.toNat)) bytes)))) ∧
  (Memory.wf s.mem = true → ∀ b : MzeroBody, b.rows ≠ 0 → b.rlen ≠ 0 →
    Ready (fun t q => areaErr (t.arrayShareOf e 2 q).2 b.coff.toNat b.cpitch.toNat b.rows.toNat b.rlen.toNat) s a →
    let at_ : Nat → Nat := fun r => (area 2).1 + (b.coff.toNat + r * b.cpitch.toNat)
    ∃ t, Gives (.mzero hd b) s t ∧ EngineOnly s t ∧ Moved s t 0 true ∧
      (∀ r i, r < b.rows.toNat → i < b.rlen.toNat → Memory.read t.mem (at_ r + i) = 0) ∧
      (∀ x, (∀ r, r < b.rows.toNat → x < at_ r ∨ at_ r + b.rlen.toNat ≤ x) → Memory.read t.mem x = Memory.read s.mem x))

/-- R86, R88, R319, R320: one element of MSTORE is C's, exact, rounded once into DF in the mode of RND, with the dither of its index for DIT
into E4M3; one of MEPI is C's plus the bias, rounded, with a NaN made canonical and any other value brought between LO and HI. -/
def Claims.MatrixElements : Prop :=
  (∀ (b : MstoreBody) (r j c : Nat) (f : FFmt),
    (b.df.toNat, f) ∈ [(0, FFmt.fp32), (1, .bf16), (2, .fp16), (3, .e4m3), (4, .e5m2), (5, .fp64)] →
    let idx := r * (b.nclast.toNat + 1) + j
    let by_ : RMode → Prop := fun md => mstoreElem b r j c = f.deliver md b.sat ((if b.cw then FFmt.fp64 else .fp32).decode c).exact
    (∀ md, (b.rnd.toNat, md) ∈ [(0, RMode.rne), (1, .rtz), (2, .rdn), (3, .rup), (4, .rmm), (6, .rne), (7, .rne)] → by_ md) ∧
    (b.rnd = 5 → b.df ≠ 3 → by_ .rne) ∧
    (b.rnd = 5 → b.df = 3 → by_ (.dit (ditherNum (idx % 32) ((b.ph.toNat + idx / 32 / 8) % 16))))) ∧
  (∀ (b : MepiBody) (c bias : Nat),
    let f := FFmt.fp32
    let sum : Nat × Flags := if b.ben then f.deliver .rne false (exactSum .rne [(f.decode c).exact, (f.decode bias).exact]) else (c, 0)
    let x := f.decode sum.1
    let lo := f.decode b.lo.toNat
    let hi := f.decode b.hi.toNat
    let y := f.decode (mepiElem b c bias).1
    (mepiElem b c bias).2 = sum.2 ∧ (x.isNaN = true → (mepiElem b c bias).1 = 0x7FC00000) ∧
    (x.isNaN = false → b.cen = false → mepiElem b c bias = sum) ∧
    (x.isNaN = false → b.cen = true → lo.isNaN = false → hi.isNaN = false → hi.lt lo = false →
      (x.lt lo = true → y.eq lo = true) ∧ (hi.lt x = true → y.eq hi = true) ∧ (lo.lt x = true → x.lt hi = true → (mepiElem b c bias).1 = sum.1)))

/-- R92, R313, R316, R319, R320: one k-group of MMUL adds to each element of C the products of up to 16 elements of its row of A and column
of W, summed exactly and rounded once; MSTORE converts a row of C to its destination, or sends it as update pairs, and ends with its status
word; MEPI adds the bias, clamps and puts the result in place. Every other byte of memory stays, and the conditions met enter MSTAT. -/
def Claims.MatrixCommands : Prop := ∀ (s : State) (hd : TcHdr) (a : Act),
  let e := s.turn.engine
  let q := a.ent
  let p := a.prog
  let k := (e - 128) * 64 + q.part
  let area : Nat → Nat × Nat := fun buf => s.typedShare (engSite e) (engNum e) buf q.part
  let word : Nat → Nat → Nat := fun x n => ofBytes (Memory.readN s.mem x n)
  let stat : State → BitVec 5 := fun t => (t.arrays.get k ArrayShare.zero).mstat
  let only : State → Prop := fun t => EngineOnly { s with arrays := t.arrays } t ∧
    ∀ j, j ≠ k → t.arrays.get j ArrayShare.zero = s.arrays.get j ArrayShare.zero
  Memory.wf s.mem = true → s.poison = [] →
  (∀ b : MmulBody, b.k ≠ 0 → Ready (mmulChk e b) s a →
    let fs := mmulFmts b
    let f := cFmt fs.1 fs.2
    let ce := f.width / 8
    let num : Nat → MFmt → Nat → Nat → Machine.Num := fun base m start i => m.value i (word (base + (start + (m.place i).1)) (m.place i).2)
    let is := (List.range (min 16 (b.k.toNat - 16 * p))).map (fun i => 16 * p + i)
    let at_ : Nat → Nat → Nat := fun m n => (area 2).1 + (b.coff.toNat + m * b.cpitch.toNat + n * ce)
    let res : Nat → Nat → Nat × Flags := fun m n => f.deliver .rne false (exactSum .rne ((f.decode (word (at_ m n) ce)).exact ::
      is.map (fun i => (num (area 1).1 fs.1 (b.aoff.toNat + m * b.apitch.toNat) i).mul (num (area 0).1 fs.2 (b.woff.toNat + n * b.wpitch.toNat) i))))
    (b.nlast.toNat + 1) * ce ≤ b.cpitch.toNat ∨ b.mlast = 0 →
    ∃ t, Gives (.mmul hd b) s t ∧ only t ∧ Moved s t (p + 1) (decide (b.k.toNat ≤ 16 * (p + 1))) ∧
      (∀ m n, m ≤ b.mlast.toNat → n ≤ b.nlast.toNat → Memory.readN t.mem (at_ m n) ce = toBytes (res m n).1 ce) ∧
      (∀ x, (∀ m n, m ≤ b.mlast.toNat → n ≤ b.nlast.toNat → x < at_ m n ∨ at_ m n + ce ≤ x) → Memory.read t.mem x = Memory.read s.mem x) ∧
      (∀ j, (stat t).getLsbD j = true ↔ (stat s).getLsbD j = true ∨
        ∃ m n, m ≤ b.mlast.toNat ∧ n ≤ b.nlast.toNat ∧ (res m n).2.getLsbD j = true)) ∧
  (∀ b : MstoreBody, b.rows ≠ 0 → s.bins = [] → Ready (mstoreChk e b) s a →
    let n := b.nclast.toNat + 1
    let ce := (cwFmt b.cw).width / 8
    let de := ((dfFmt b.df.toNat).getD .fp32).width / 8
    let off := ((b.doff.toNat : Int) + b.dpitch.toInt * p).toNat
    let d := hAddr q.h1 off
    let val : Nat → Nat × Flags := fun j => mstoreElem b p j (word ((area 2).1 + (b.coff.toNat + p * b.cpitch.toNat) + j * ce) ce)
    let flags : State → Prop := fun t => ∀ j, (stat t).getLsbD j = true ↔ (stat s).getLsbD j = true ∨
      ∃ i, i < n ∧ (val i).2.getLsbD j = true
    (p < b.rows.toNat → b.upd = false → Writable s d (n * de) → ∃ t, Gives (.mstore hd b) s t ∧ only t ∧ Moved s t (p + 1) false ∧ flags t ∧
      Holds s t d ((List.range n).flatMap (fun j => toBytes (val j).1 de))) ∧
    (p < b.rows.toNat → b.upd = true → ∀ c, (s.eng e).cur = some c → ∃ (t : State) (x : ExecEnt) (ps : List UPair),
      Gives (.mstore hd b) s t ∧ only t ∧ t.mem = s.mem ∧ flags t ∧ (t.eng e).cur = some x ∧ x.act.prog = p + 1 ∧ x.pairs = c.pairs ++ ps ∧
      ps.map (fun u => (u.off, u.addr, u.val.toNat)) =
        (List.range n).map (fun j => (off + j * de, hAddr q.h1 (off + j * de), (val j).1 % 2 ^ 64))) ∧
    (b.rows.toNat ≤ p → ∀ c, (s.eng e).cur = some c →
      (c.pairs ≠ [] → ∃ t, Gives (.mstore hd b) s t ∧ only t ∧ t.mem = s.mem ∧ Moved s t p false) ∧
      (c.pairs = [] → b.sen = false → ∃ t, Gives (.mstore hd b) s t ∧ only t ∧ t.mem = s.mem ∧ Moved s t p true) ∧
      (c.pairs = [] → b.sen = true → Writable s (hAddr q.h1 b.soffs.toNat) 8 → ∃ t, Gives (.mstore hd b) s t ∧ only t ∧ Moved s t p true ∧
        Holds s t (hAddr q.h1 b.soffs.toNat) (toBytes (stat s).toNat 8) ∧ stat t = 0))) ∧
  (∀ b : MepiBody, b.rows ≠ 0 → Ready (mepiChk e b) s a →
    let n := b.nclast.toNat + 1
    let off : Nat → Nat → Nat := fun r j => b.coff.toNat + r * b.cpitch.toNat + 4 * j
    let res : Nat → Nat → Nat × Flags := fun r j => mepiElem b (word ((area 2).1 + off r j) 4) (word ((area 2).1 + (b.boff.toNat + 4 * j)) 4)
    4 * n ≤ b.cpitch.toNat ∨ b.rows = 1 →
    (b.ben = true → ∀ r, r < b.rows.toNat → b.boff.toNat + 4 * n ≤ off r 0 ∨ off r n ≤ b.boff.toNat) →
    ∃ t, Gives (.mepi hd b) s t ∧ only t ∧ Moved s t 0 true ∧
      (∀ r j, r < b.rows.toNat → j < n → Memory.readN t.mem ((area 2).1 + off r j) 4 = toBytes (res r j).1 4) ∧
      (∀ x, (∀ r, r < b.rows.toNat → x < (area 2).1 + off r 0 ∨ (area 2).1 + off r n ≤ x) → Memory.read t.mem x = Memory.read s.mem x) ∧
      (∀ j, (stat t).getLsbD j = true ↔ (stat s).getLsbD j = true ∨ ∃ r i, r < b.rows.toNat ∧ i < n ∧ (res r i).2.getLsbD j = true))

/-- R86, R88, R92, R313, R316, R319, R320: the matrix commands that compute, and what one element of MSTORE and of MEPI becomes. A k-group's sum
past the largest finite magnitude is delivered as R87 has it, rounded to nearest (log 70). -/
def Obligations.MatrixArithmetic : Prop := Claims.MatrixCommands ∧ Claims.MatrixElements

/-- R321-R323, R326, R327: WLOAD puts instructions into the program store; WRUN starts its walker from an image of its registers, clears its
current slot and then waits for DONE; WSTAT writes the 128-byte record; ISECT configures the intersect unit and runs one pair of bitmap
words. -/
def Obligations.WalkerCommands : Prop := ∀ (s : State) (hd : TcHdr) (a : Act),
  let e := s.turn.engine
  let q := a.ent
  let w := s.walker e
  let word : Nat → Nat := fun x => ofBytes (Memory.readN s.mem x 4)
  let only : State → Prop := fun t => EngineOnly { s with walkers := t.walkers } t ∧ ∀ j, j ≠ e → t.walker j = s.walker j
  s.bins = [] → Memory.wf s.mem = true →
  (∀ b : WloadBody, Ready (wloadChk b) s a → b.ni ≠ 0 →
    let so := hAddr q.h0 b.soff.toNat
    Readable s so (4 * b.ni.toNat) → ∃ t, Gives (.wload hd b) s t ∧ only t ∧ t.mem = s.mem ∧ Moved s t 0 true ∧
      (let v := t.walker e
       v = { w with store := v.store } ∧
       (∀ i, i < b.ni.toNat → v.store.find (b.dpc.toNat + i) = some (BitVec.ofNat 32 (word (so + 4 * i)))) ∧
       ∀ j, j < b.dpc.toNat ∨ b.dpc.toNat + b.ni.toNat ≤ j → v.store.find j = w.store.find j)) ∧
  (∀ b : WrunBody, Ready (wrunChk e b) s a →
    let io := hAddr q.h0 b.ioff.toNat
    let ar := 128 + engSite e * 8 + engNum e
    let area := s.typedShare (engSite ar) (engNum ar) 1 q.part
    let at_ : Nat → Nat := fun i => area.1 + (b.toff0.toNat + i * b.tpitch.toNat)
    let n := (b.tclast.toNat + 1) * 2 ^ b.esz.toNat
    (a.prog = 0 → Readable s io 64 → ∃ t, Gives (.wrun hd b) s t ∧ only t ∧ Moved s t 1 false ∧
      (let v := t.walker e
       (∀ i, i < 16 → v.regs.get i 0 = BitVec.ofNat 32 (word (io + 4 * i))) ∧
       v = { w with
         regs := v.regs, pc := b.pc.toNat, toff0 := b.toff0.toNat, toff1 := b.toff1.toNat, cur := false, closed := 0, count := 0, status := 1,
         trlast := b.trlast.toNat, tclast := b.tclast.toNat, esz := b.esz.toNat, tpitch := b.tpitch.toNat,
         maxi := if b.maxi = 0 then 2 ^ 32 else b.maxi.toNat }) ∧
      (∀ i j, i ≤ b.trlast.toNat → j < n → Memory.read t.mem (at_ i + j) = 0) ∧
      (∀ x, (∀ i, i ≤ b.trlast.toNat → x < at_ i ∨ at_ i + n ≤ x) → Memory.read t.mem x = Memory.read s.mem x)) ∧
    (a.prog ≠ 0 → ∃ t, Gives (.wrun hd b) s t ∧ only t ∧ t.mem = s.mem ∧ t.walker e = w ∧ Moved s t a.prog false)) ∧
  (∀ b : WstatBody, Ready (fun t q => t.entErr q q.h1 b.doff.toNat 128 .w) s a →
    let d := hAddr q.h1 b.doff.toNat
    let le : Nat → Nat → List Byte := fun x n => (List.range n).map (fun i => BitVec.ofNat 8 (x / 2 ^ (8 * i)))
    Writable s d 128 → ∃ t, Gives (.wstat hd b) s t ∧ only t ∧ t.walker e = w ∧ Moved s t 0 true ∧
      Holds s t d ((List.range 16).flatMap (fun i => le (w.regs.get i 0).toNat 4) ++ le w.pc 4 ++ le w.status 4 ++ le w.acc.toNat 4 ++
        le w.px.toNat 4 ++ le w.py.toNat 4 ++ le w.closed.toNat 4 ++ le w.count 8 ++ List.replicate 32 0)) ∧
  (∀ b : IsectBody, Ready (isectChk b) s a →
    let v : Walker := if a.prog = 0 then
        { w with
          el := b.el, xvb := b.xvoff.toNat, yvb := b.yvoff.toNat, conf := true, acc := if b.clr then 0 else w.acc,
          px := if b.clr then 0 else w.px, py := if b.clr then 0 else w.py }
      else w
    let xa := hAddr q.h0 (b.xboff.toNat + 4 * a.prog)
    let ya := hAddr q.h1 (b.yboff.toNat + 4 * a.prog)
    (b.nw.toNat ≤ a.prog → ∃ t, Gives (.isect hd b) s t ∧ only t ∧ t.mem = s.mem ∧ t.walker e = v ∧ Moved s t 0 true) ∧
    (a.prog < b.nw.toNat → Readable s xa 4 → Readable s ya 4 → word xa &&& word ya = 0 → ∃ t, Gives (.isect hd b) s t ∧ only t ∧
      t.mem = s.mem ∧ Moved s t (a.prog + 1) (decide (b.nw.toNat = a.prog + 1)) ∧
      t.walker e = { v with px := v.px + BitVec.ofNat 32 (popcount (word xa) 32), py := v.py + BitVec.ofNat 32 (popcount (word ya) 32) }) ∧
    (∀ k, a.prog < b.nw.toNat → Readable s xa 4 → Readable s ya 4 → word xa = 2 ^ k → word ya = 2 ^ k → k < 32 →
      let n := if b.el = 2 then 2 else 1
      let fx := v.xvb + v.px.toNat * n
      let fy := v.yvb + v.py.toNat * n
      let val : Nat → Int := fun x => let y := ofBytes (Memory.readN s.mem x n)
        if b.el = 1 ∨ y < 2 ^ (8 * n - 1) then y else y - 2 ^ (8 * n)
      s.boundsErr q q.h0 fx n = none → s.boundsErr q q.h1 fy n = none → Readable s (hAddr q.h0 fx) n → Readable s (hAddr q.h1 fy) n →
      v.el = b.el → ∃ t, Gives (.isect hd b) s t ∧ only t ∧ t.mem = s.mem ∧ Moved s t (a.prog + 1) (decide (b.nw.toNat = a.prog + 1)) ∧
        t.walker e = { v with
          px := v.px + 1, py := v.py + 1, acc := v.acc + BitVec.ofInt 32 (val (hAddr q.h0 fx) * val (hAddr q.h1 fy)) }))

/-- R323, R324, R326: the walker's instructions. Each counts, moves the program counter and writes at most its register, or the tile of its
array's A buffer; DONE ends the entry. Nothing else of the walker or of memory changes. -/
def Obligations.WalkerProgram : Prop := ∀ (s : State) (wd wa wb : WReg) (imm : BitVec 14),
  let e := s.turn.engine
  let w := s.walker e
  let q := s.walkerEnt e
  let x := w.regs.get wa.toNat 0
  let y := w.regs.get wb.toNat 0
  let ar := 128 + engSite e * 8 + engNum e
  let area := s.typedShare (engSite ar) (engNum ar) 1 q.part
  let toff := if w.cur then w.toff1 else w.toff0
  let only : State → Prop := fun t => t = { s with
      engines := t.engines, walkers := t.walkers, mem := t.mem, poison := t.poison, exts := t.exts, agenda := t.agenda } ∧
    (∀ j, j ≠ e → t.walker j = s.walker j) ∧ ∀ j, j ≠ e → t.eng j = s.eng j
  let gives : Instr → Walker → Prop := fun i v => ∃ t, Gives i s t ∧ only t ∧ t.mem = s.mem ∧ t.walker e = { v with count := w.count + 1 }
  let reg : Instr → BitVec 32 → Prop := fun i v => gives i { w with regs := w.regs.set wd.toNat v, pc := w.pc + 1 }
  let stops : Instr → Nat → Prop := fun i n => (s.eng e).cur ≠ none → Live s q → ∃ t, Gives i s t ∧ EntryStops s t cWALKER n
  Memory.wf s.mem = true → s.bins = [] →
  reg (.walkerAddw wd wa wb) (x + y) ∧ reg (.walkerSubw wd wa wb) (x - y) ∧ reg (.walkerAndw wd wa wb) (x &&& y) ∧
  reg (.walkerShrw wd wa imm) (BitVec.ofNat 32 (x.toNat / 2 ^ imm.toNat)) ∧
  (∃ n : Nat, reg (.walkerPopc wd wa) (BitVec.ofNat 32 n) ∧ n = ((List.range 32).filter (fun i => x.getLsbD i)).length) ∧
  (∃ n : Nat, reg (.pfxp wd wa wb) (BitVec.ofNat 32 n) ∧ n = ((List.range 32).filter (fun i => x.getLsbD i && decide (i < y.toNat))).length) ∧
  (∀ i n, (i, n) ∈ [(Instr.walkerLdw wd wa imm, 4), (.walkerLdh wd wa imm, 2), (.walkerLdb wd wa imm, 1)] →
    let h := if imm.getLsbD 13 then q.h1 else q.h0
    let off : Nat := (x.toNat + imm.toNat % 2 ^ 13) % 2 ^ 32
    (s.boundsErr q h off n = none → Readable s (hAddr h off) n → reg i (BitVec.ofNat 32 (ofBytes (Memory.readN s.mem (hAddr h off) n)))) ∧
    (∀ r, s.boundsErr q h off n = some r → Gives i s (s.stopEntry e r))) ∧
  gives (.bnz wa imm) { w with pc := if x = 0 then w.pc + 1 else imm.toNat } ∧
  gives (.bz wa imm) { w with pc := if x = 0 then imm.toNat else w.pc + 1 } ∧
  gives (.walkerJmp imm) { w with pc := imm.toNat } ∧
  (let row := x.toNat / (w.tclast + 1)
   let at_ := area.1 + (toff + row * w.tpitch + x.toNat % (w.tclast + 1) * 2 ^ w.esz)
   (row ≤ w.trlast → ∃ t, Gives (.walkerEmit wa wb) s t ∧ only t ∧ t.walker e = { w with pc := w.pc + 1, count := w.count + 1 } ∧
      Holds s t at_ (toBytes y.toNat (2 ^ w.esz))) ∧ (w.trlast < row → stops (.walkerEmit wa wb) 3)) ∧
  (let n := (w.tclast + 1) * 2 ^ w.esz
   (x.toNat ≤ w.trlast → s.boundsErr q q.h0 y.toNat n = none → Readable s (hAddr q.h0 y.toNat) n →
      ∃ t, Gives (.emrow wa wb) s t ∧ only t ∧ t.walker e = { w with pc := w.pc + 1, count := w.count + 1 } ∧
        Holds s t (area.1 + (toff + x.toNat * w.tpitch)) (Memory.readN s.mem (hAddr q.h0 y.toNat) n)) ∧
   (w.trlast < x.toNat → stops (.emrow wa wb) 3)) ∧
  (let next := if w.cur then w.toff0 else w.toff1
   let n := (w.tclast + 1) * 2 ^ w.esz
   ∃ t, Gives .nextt s t ∧ only t ∧ t.walker e = { w with pc := w.pc + 1, count := w.count + 1, cur := !w.cur, closed := w.closed + 1 } ∧
     (∀ i j, i ≤ w.trlast → j < n → Memory.read t.mem (area.1 + (next + i * w.tpitch) + j) = 0) ∧
     (∀ z, (∀ i, i ≤ w.trlast → z < area.1 + (next + i * w.tpitch) ∨ area.1 + (next + i * w.tpitch) + n ≤ z) →
       Memory.read t.mem z = Memory.read s.mem z)) ∧
  (s.arrayIdle e = true → gives .waita { w with pc := w.pc + 1 }) ∧ (s.arrayIdle e = false → Gives .waita s s) ∧
  (w.conf = false → stops (.istep wd wa wb) 6) ∧
  -- each bit that the two words have in common fetches its two values, which stand at its rank in its own word, and adds their product
  (let common := (List.range 32).filter (fun i => x.getLsbD i && y.getLsbD i)
   let rank : BitVec 32 → Nat → Nat := fun v i => ((List.range i).filter (fun j => v.getLsbD j)).length
   let n := if w.el = 2 then 2 else 1
   let fx : Nat → Nat := fun i => w.xvb + (w.px.toNat + rank x i) * n
   let fy : Nat → Nat := fun i => w.yvb + (w.py.toNat + rank y i) * n
   let val : Nat → Int := fun p => let z := ofBytes (Memory.readN s.mem p n)
     if w.el = 1 ∨ z < 2 ^ (8 * n - 1) then z else z - 2 ^ (8 * n)
   w.conf = true → (∀ i, i ∈ common → s.boundsErr q q.h0 (fx i) n = none ∧ s.boundsErr q q.h1 (fy i) n = none ∧
     Readable s (hAddr q.h0 (fx i)) n ∧ Readable s (hAddr q.h1 (fy i)) n) → gives (.istep wd wa wb) { w with
       regs := w.regs.set wd.toNat (BitVec.ofNat 32 common.length), pc := w.pc + 1, px := w.px + BitVec.ofNat 32 (rank x 32),
       py := w.py + BitVec.ofNat 32 (rank y 32),
       acc := w.acc + BitVec.ofInt 32 ((common.map (fun i => val (hAddr q.h0 (fx i)) * val (hAddr q.h1 (fy i)))).foldl (· + ·) 0) }) ∧
  (∀ c, (s.eng e).cur = some c → ∃ (t : State) (d : ExecEnt), Gives .done s t ∧ only t ∧ t.mem = s.mem ∧
    t.walker e = { w with count := w.count + 1, status := 0 } ∧ (t.eng e).cur = some d ∧ d.done = true)

/-- R328-R330: the sort engines. SORT orders each run of 4,096 keys on its own, keeping equal keys in input order; the other commands are
stated for inputs of one unit of 4,096 elements: TOPK writes the first K of the ordered elements after the reference, MERGE interleaves two
ordered runs, SELECT writes the element at a rank, SEARCH the lower bound of each query in ordered keys, UNIQ the first element of each run of
equal keys and their count. Every byte that is not written stays. How many passes a command makes and what it may overlap is log 43. -/
def Obligations.SortEngines : Prop := ∀ (s : State) (hd : TcHdr) (a : Act) (b : SortBody),
  let q := a.ent
  let ks := keyBytes b.kt.toNat
  let pin := if b.pw = 1 then 4 else if b.pw = 2 then 8 else 0
  let pout := if b.pw = 0 then 0 else if b.pw = 2 then 8 else 4
  let lt : SortElem → SortElem → Prop := fun x y => precedes b.kt.toNat b.desc x.key y.key = true
  let num : Nat → Nat → Nat := fun o n => ofBytes (Memory.readN s.mem (hAddr q.h0 o) n)
  let elem_ : Nat → SortElem := fun i =>
    { key := num (b.koff.toNat + i * ks) ks, pay := if b.pw = 3 then i else num (b.poff.toNat + i * pin) pin, idx := i }
  let elems : Nat → Nat → List SortElem := fun lo n => (List.range n).map (fun i => elem_ (lo + i))
  let ordered : List SortElem → Prop := List.Pairwise (fun x y => ¬lt y x ∧ (¬lt x y → x.idx < y.idx))
  let reads : Nat → Nat → Prop := fun lo n => Readable s (hAddr q.h0 (b.koff.toNat + lo * ks)) (n * ks) ∧
    (pin ≠ 0 → Readable s (hAddr q.h0 (b.poff.toNat + lo * pin)) (n * pin))
  let kd : Nat → Nat := fun i => hAddr q.h1 (b.dkoff.toNat + i * ks)
  let pd : Nat → Nat := fun i => hAddr q.h1 (b.dpoff.toNat + i * pout)
  let roomy : Nat → Nat → Prop := fun i n => Writable s (kd i) (n * ks) ∧ (pout ≠ 0 → Writable s (pd i) (n * pout))
  let put : Nat → List SortElem → List Host.Cell := fun i ys =>
    let m := Memory.writeBytes s.mem (kd i) (ys.flatMap (fun y => toBytes y.key ks))
    if pout = 0 then m else Memory.writeBytes m (pd i) (ys.flatMap (fun y => toBytes y.pay pout))
  let n := b.n.toNat
  s.bins = [] → b.n ≠ 0 →
  (Ready (sortChk (sortRanges b n n) (b.dkoff == b.koff && b.dpoff == b.poff)) s a → 4096 * a.prog < n →
    let lo := 4096 * a.prog
    let m := min 4096 (n - lo)
    reads lo m → roomy lo m → ∃ t ys, Gives (.sort hd b) s t ∧ EngineOnly s t ∧ Moved s t (a.prog + 1) (decide (n ≤ lo + 4096)) ∧
      ys.Perm (elems lo m) ∧ ordered ys ∧ t.mem = put lo ys) ∧
  (n ≤ 4096 → a.prog = 0 → a.aux = [] →
    (∀ k aen afti, b.pw = 0 ∨ b.pw = 3 → Ready (sortChk (sortRanges b n (topkMax b k)) false) s a → reads 0 n → (aen = true → reads afti.toNat 1) →
      roomy 0 (topkMax b k) → ∃ t ys, Gives (.topk hd b k aen afti) s t ∧ EngineOnly s t ∧ Moved s t 1 true ∧
        (let ref := elem_ afti.toNat
         ys.Perm ((elems 0 n).filter (fun x => !aen || (precedes b.kt.toNat b.desc ref.key x.key ||
           (!precedes b.kt.toNat b.desc x.key ref.key && decide (ref.idx < x.idx)))))) ∧
        ordered ys ∧ t.mem = put 0 (ys.take k.toNat)) ∧
    (∀ n2 : BitVec 24, n2 ≠ 0 → n + n2.toNat ≤ 4096 → Ready (sortChk (sortRanges b (n + n2.toNat) (n + n2.toNat)) false) s a →
      reads 0 (n + n2.toNat) → roomy 0 (n + n2.toNat) → s.exts = [] → b.pw = 0 →
      (hAddr q.h0 b.koff.toNat + (n + n2.toNat) * ks ≤ kd 0 ∨ kd 0 + (n + n2.toNat) * ks ≤ hAddr q.h0 b.koff.toNat) → Memory.wf s.mem = true →
      ordered (elems 0 n) → ordered (elems n n2.toNat) → ∃ t ys, Gives (.merge hd b n2) s t ∧ EngineOnly s t ∧ Moved s t 1 true ∧
        ys.Perm (elems 0 (n + n2.toNat)) ∧ ordered ys ∧ t.mem = put 0 ys) ∧
    (∀ rank : BitVec 24, rank.toNat < n → Ready (sortChk (sortRanges b n 1) false) s a → reads 0 n → roomy 0 1 →
      ∃ t ys y, Gives (.select hd b rank) s t ∧ EngineOnly s t ∧ Moved s t 1 true ∧ ys.Perm (elems 0 n) ∧ ordered ys ∧ ys[rank.toNat]? = some y ∧
        t.mem = put 0 [y]) ∧
    (∀ coff : BitVec 40, Ready (sortChk { sortRanges b n n with dst := (sortRanges b n n).dst ++ [(coff.toNat, 8)] } false) s a → reads 0 n →
      roomy 0 n → Writable s (hAddr q.h1 coff.toNat) 8 →
      let keep : Nat → Bool := fun i => decide (i = 0) || precedes b.kt.toNat b.desc (elem_ (i - 1)).key (elem_ i).key ||
        precedes b.kt.toNat b.desc (elem_ i).key (elem_ (i - 1)).key
      let ys := ((List.range n).filter keep).map elem_
      ordered (elems 0 n) → ∃ t, Gives (.uniq hd b coff) s t ∧ EngineOnly s t ∧ Moved s t 1 true ∧
        t.mem = Memory.writeBytes (put 0 ys) (hAddr q.h1 coff.toNat) (toBytes ys.length 8))) ∧
  (∀ nq : BitVec 24, 4096 * a.prog < nq.toNat →
    Ready (sortChk { src := [(b.koff.toNat, n * ks), (b.poff.toNat, nq.toNat * ks)], dst := [(b.dkoff.toNat, nq.toNat * 4)] } false) s a →
    let lo := 4096 * a.prog
    let m := min 4096 (nq.toNat - lo)
    Readable s (hAddr q.h0 b.koff.toNat) (n * ks) → Readable s (hAddr q.h0 (b.poff.toNat + lo * ks)) (m * ks) →
    Writable s (hAddr q.h1 (b.dkoff.toNat + 4 * lo)) (4 * m) → ordered (elems 0 n) → ∃ (t : State) (js : List Nat),
      Gives (.search hd b nq) s t ∧ EngineOnly s t ∧ Moved s t (a.prog + 1) (decide (nq.toNat ≤ lo + 4096)) ∧ js.length = m ∧
      t.mem = Memory.writeBytes s.mem (hAddr q.h1 (b.dkoff.toNat + 4 * lo)) (js.flatMap (fun j => toBytes j 4)) ∧
      ∀ i j, js[i]? = some j → j ≤ n ∧ ∀ k, k < n →
        (precedes b.kt.toNat b.desc (num (b.koff.toNat + k * ks) ks) (num (b.poff.toNat + (lo + i) * ks) ks) = true ↔ k < j))

/-- R331, R332, R336: shutter control. UOPEN opens the range of its view as a region of its operator; UCLOSE closes it once nothing is
attached to it or on its way to it, and the buffer's operator returns to 0 with its last region; UQUOTA sets the region's quota and reports
spills and bins; USPILL sets NOSP, clears the count and applies the region's bins. Memory changes only by the report and by a bin applied. That a
region counts at the owner of its buffer, and takes its view as its pusher's chiplet sees it, is log 44. -/
def Obligations.ShutterControl : Prop := ∀ (s : State) (hd : TcHdr) (a : Act) (k : Nat),
  let q := a.ent
  let bid := q.h1.toNat / 2 ^ 40
  let r := s.viewRange (q.core / 16) q.h1
  let only : State → Prop := fun t => EngineOnly { s with regions := t.regions, bufs := t.bufs, pins := t.pins, stamp := t.stamp } t ∧
    ∀ j, j ≠ bid → t.buf j = s.buf j
  -- a change of the buffer's operator reaches its pinned copies
  let copies : State → BitVec 5 → Prop := fun t u => t.pins = s.pins.map (fun p =>
    if p.1 % 2 ^ 24 = bid ∧ p.2.copy.gen = (s.buf bid).gen then (p.1, { p.2 with copy := { p.2.copy with uop := u } }) else p)
  (∀ (b : UquotaBody),
    let d := hAddr q.h0 b.roff.toNat
    let reg := s.regions.get k Region.none
    Ready (fun t q => firstErr [regionChk t q, if b.ren then t.entErr q q.h0 b.roff.toNat 16 .w else none]) s a → s.exactRegion q = some k →
    b.ren = true → Memory.wf s.mem = true → Writable s d 16 →
    (∀ x, x ∈ s.bins → (s.regions.get x.2.region Region.none).nosp = true ∧ x.1 / 64 ∉ granules d 16) →
    ∃ t, Gives (.uquota hd b) s t ∧ EngineOnly { s with regions := t.regions } t ∧ Moved s t 0 true ∧
      t.regions = s.regions.set k { reg with rq := b.rq } ∧
      Holds s t d (toBytes reg.spills.toNat 8 ++ toBytes (s.bins.filter (fun x => x.2.region == k)).length 8)) ∧
  (∀ (b : UspillBody) (x : Nat) (bin : Bin), Ready regionChk s a → s.exactRegion q = some k → b.apply = true → s.bins = [(x, bin)] →
    bin.region = k → Memory.wf s.mem = true → s.poison = [] →
    let n := uopSize bin.uop.toNat
    let old := ofBytes (Memory.readN s.mem x n)
    let reg := s.regions.get k Region.none
    (∃ t, Gives (.uspill hd b) s t ∧ EngineOnly { s with regions := t.regions, bins := t.bins, rcbs := t.rcbs } t ∧ Moved s t 0 true ∧
      t.bins = [] ∧ Holds s t x (toBytes (bin.applyTo old) n) ∧
      t.regions = s.regions.set k { reg with nosp := b.nosp, spills := if b.clr then 0 else reg.spills }) ∧
    (bin.uop = 1 → bin.count ≠ 0 → n = 4 ∧ bin.applyTo old % 2 ^ 32 = (old + bin.val.toNat) % 2 ^ 32)) ∧
  (s.bins = [] →
  (∀ b : UopenBody, Ready (uopenChk b) s a → ∃ t n, Gives (.uopen hd b) s t ∧ only t ∧ t.mem = s.mem ∧ Moved s t 0 true ∧
    t.buf bid = { s.buf bid with uop := b.uop } ∧ copies t b.uop ∧ t.stamp = s.stamp + 1 ∧ t.regions.get n Region.none =
      { bid := bid, lo := r.1, hi := r.2, uop := b.uop, nosp := b.nosp, spills := 0, rq := 0, part := q.part, orcb := (s.buf bid).orcb } ∧
    ∀ j, j ≠ n → t.regions.get j Region.none = s.regions.get j Region.none) ∧
  (s.exactRegion q = some k → (∀ r', s.regions.find k = some r' → r'.bid = bid) → (s.regions.find k).isSome = true →
    let reg := s.regions.get k Region.none
    (Ready regionChk s a → s.regionBusy k = false → ∃ t, Gives (.uclose hd) s t ∧ only t ∧ t.mem = s.mem ∧ Moved s t 0 true ∧
      t.regions = s.regions.erase k ∧ ((s.regions.erase k).any (fun p => p.2.bid == bid) = false → copies t 0) ∧
      t.buf bid = (if (s.regions.erase k).any (fun p => p.2.bid == bid) then s.buf bid else { s.buf bid with uop := 0 })) ∧
    (Ready regionChk s a → s.regionBusy k = true → ∃ t, Gives (.uclose hd) s t ∧ only t ∧ t.mem = s.mem ∧ Moved s t a.prog false) ∧
    (∀ b : UquotaBody, Ready (fun t q => firstErr [regionChk t q, if b.ren then t.entErr q q.h0 b.roff.toNat 16 .w else none]) s a →
      let d := hAddr q.h0 b.roff.toNat
      (b.ren = true → Memory.wf s.mem = true ∧ Writable s d 16) → ∃ t, Gives (.uquota hd b) s t ∧ only t ∧ Moved s t 0 true ∧
        t.regions = s.regions.set k { reg with rq := b.rq } ∧ (b.ren = false → t.mem = s.mem) ∧
        (b.ren = true → Holds s t d (toBytes reg.spills.toNat 8 ++ List.replicate 8 0))) ∧
    (∀ b : UspillBody, Ready regionChk s a → ∃ t, Gives (.uspill hd b) s t ∧ only t ∧ t.mem = s.mem ∧ Moved s t 0 true ∧
      t.regions = s.regions.set k { reg with nosp := b.nosp, spills := if b.clr then 0 else reg.spills })))

/-- R219-R221, R231, R232, R415, R416, R422: what memory does by itself. A migrating extent comes into HBM where an extent is free, and otherwise stays;
below 2 % free the MEM demotes its coldest extents that are resident, not pinned and no part of a load, until 4 % are free (log 32); a
tier-2 failure loses what the device held, and a device that joins is empty; an
uncorrectable error poisons the granule it strikes, or a sill slot that is full (log 61); none of these changes a byte. A clock of shared scratch that has one request and no bank
held serves it: a store's bytes are written and its banks held for the next clock; a load goes in flight with its bytes after its last granule. -/
def Obligations.MemoryEvents : Prop := ∀ (s : State) (m : BitVec 3),
  let k := s.turn.item
  let site := s.turn.site
  let mine : SsmReq → Bool := fun x => decide (x.gran / 2 ^ 18 = 2 ^ 41 + site)
  let only : State → Prop := fun t => t = { s with exts := t.exts, tier2 := t.tier2, disc := t.disc, draws := t.draws }
  -- the compute site in which an error lies is noted for its drain
  let notes : State → Option Nat → Prop := fun t o => ∀ j, j ∈ t.errored ↔ j ∈ s.errored ∨ (o = some j ∧ j < 16)
  let hits : ErrLoc → Nat → Option Nat → Prop := fun loc x o => ∃ t, Gives (.uncorrectableError loc) s t ∧
    t = { s with poison := t.poison, errored := t.errored } ∧ notes t o ∧ ∀ g, g ∈ t.poison ↔ g ∈ s.poison ∨ g = x / 64
  let on : Nat → ErrLoc → Option Nat → (Core → Core → Prop) → Prop := fun n loc o f => ∃ t, Gives (.uncorrectableError loc) s t ∧
    t = { s with cores := t.cores, errored := t.errored } ∧ notes t o ∧ (∀ j, j ≠ n → t.core j = s.core j) ∧ f (s.core n) (t.core n)
  let sat : BitVec 32 → BitVec 32 → Prop := fun x y => y.toNat = min (x.toNat + 1) (2 ^ 32 - 1)
  ((s.ext k).st = .migrating → 0 < s.hbmFree (extMem k) → Gives .extentMigration s (s.setExt k { s.ext k with st := .hbm }) ∧
    only (s.setExt k { s.ext k with st := .hbm })) ∧
  ((s.ext k).st ≠ .migrating ∨ s.hbmFree (extMem k) = 0 → Gives .extentMigration s s) ∧
  (hbmExtents ≤ s.hbmFree k * 50 → Gives .extentDemotion s s) ∧
  (s.hbmFree k * 50 < hbmExtents →
    let may := (s.demotable k).eraseDups
    let need := (hbmExtents * 4 + 99) / 100 - s.hbmFree k
    let room := s.tier2.get k 0 - s.tier2Count k
    (∀ j, j ∈ may → (s.ext j).st = .hbm ∧ (s.ext j).pinned = false ∧ j ∉ s.loadingExts) ∧
    ∃ (t : State) (l : List Nat), Gives .extentDemotion s t ∧ only t ∧ t.tier2 = s.tier2 ∧ l.Nodup ∧ l.length = min (min room need) may.length ∧
      (∀ j, j ∈ l → j ∈ may ∧ t.ext j = { s.ext j with st := .tier2 } ∧ ∀ i, i ∈ may → i ∉ l → (s.ext j).acc ≤ (s.ext i).acc) ∧
      ∀ j, j ∉ l → t.ext j = s.ext j) ∧
  (∃ t, Gives (.tier2DeviceFailure m) s t ∧ only t ∧ t.draws = s.draws ∧ (t.siteDisc (16 + m.toNat)).units.getLsbD 50 = false ∧
    ∀ j, (t.ext j) = if extMem j = m.toNat ∧ ((s.ext j).st = .tier2 ∨ (s.ext j).st = .migrating) then { s.ext j with st := .lost } else s.ext j) ∧
  (∃ t n, Gives (.tier2DeviceJoin m) s t ∧ only t ∧ t.exts = s.exts ∧ 0 < n ∧ t.tier2.get m.toNat 0 = n ∧
    (t.siteDisc (16 + m.toNat)).units.getLsbD 50 = true ∧
    ∀ j, j ≠ m.toNat → t.tier2.get j 0 = s.tier2.get j 0) ∧
  (∀ bid off, hits (.buffer bid off) (bid.toNat * 2 ^ 40 + off.toNat) none) ∧
  (∀ core off, off.toNat < s.psmSize core.toNat →
    hits (.privScratch core off) (2 ^ 64 + core.toNat * 2 ^ 20 + off.toNat) (some (core.toNat / 16))) ∧
  (∀ site off, hits (.sharedScratch site off) (ssmAddr site.toNat off.toNat) (some site.toNat)) ∧
  -- a pre-emption slot that holds a faulting strand's context, or that of a gang on its way in or out
  (∀ core, ∃ t, Gives (.uncorrectableError (.shadow core true)) s t ∧ notes t (some (core.toNat / 16)) ∧
    t = { s with cores := t.cores, errored := t.errored, saved := s.saved.map (fun g => g.struck core.toNat) } ∧
    (∀ j, j ≠ core.toNat → t.core j = s.core j) ∧
    t.core core.toNat = { s.core core.toNat with preemptBad := (s.core core.toNat).preemptBad || (s.core core.toNat).preempt.isSome } ∧
    ∀ g, g ∈ s.saved → (g.place = .memory → g.struck core.toNat = g) ∧ (∀ x, (core.toNat, x) ∈ g.ctxs → g.place ≠ .memory →
      core.toNat ∈ (g.struck core.toNat).poisoned)) ∧
  (∀ core slot, slot.toNat < 32 → on core.toNat (.sill core slot) (some (core.toNat / 16)) (fun c c' =>
    let e := c.ctx.sillS.get slot.toNat SillS.empty
    (e.st = .full → (c'.ctx.sillS.get slot.toNat SillS.empty) = { e with st := .poisoned }) ∧ (e.st ≠ .full → c' = c))) ∧
  (∀ core, on core.toNat (.privCorrected core) none (fun c c' => sat c.diagPriv c'.diagPriv ∧ c' = { c with diagPriv := c'.diagPriv })) ∧
  (∀ core again, on core.toNat (.regParity core again) (if again then some (core.toNat / 16) else none) (fun c c' =>
    sat c.diagPar c'.diagPar ∧ c' = { c with diagPar := c'.diagPar, parityBad := c.parityBad || again })) ∧
  (∀ r : SsmReq,
    s.ssm.filter mine = [r] → (∀ k, k ∈ s.ssmHeld → k / 256 ≠ site) →
    (r.wr = true → (∀ g, s.ssmGroups.find r.group = some g → g.addrs = []) → ∃ t, Gives .sharedScratchServe s t ∧
      t = { s with mem := t.mem, poison := t.poison, ssm := t.ssm, ssmGroups := t.ssmGroups, ssmHeld := t.ssmHeld } ∧
      t.mem = Memory.writeCells s.mem r.cells ∧ (∀ x, x ∈ t.ssm ↔ x ∈ s.ssm ∧ ¬(x.group = r.group ∧ x.gran = r.gran)) ∧
      ∀ k, k ∈ t.ssmHeld ↔ k ∈ s.ssmHeld ∨ k = site * 256 + r.gran % 64 ∨ k = site * 256 + (128 + r.gran % 64 / 4)) ∧
    (∀ g, r.wr = false → 4096 ≤ r.core → s.ssmGroups.find r.group = some g → ∃ t, Gives .sharedScratchServe s t ∧
      t = { s with ssm := t.ssm, ssmGroups := t.ssmGroups, ssmHeld := t.ssmHeld } ∧ t.ssmHeld = s.ssmHeld ∧
      (∀ x, x ∈ t.ssm ↔ x ∈ s.ssm ∧ ¬(x.group = r.group ∧ x.gran = r.gran)) ∧
      t.ssmGroups.find r.group = some { g with
        left := g.left - 1, got := g.got ++ (List.range 64).map (fun i => (r.gran * 64 + i, Memory.read s.mem (r.gran * 64 + i))) }) ∧
    (∀ g, r.wr = false → r.core < 4096 → s.ssmGroups.find r.group = some g → g.left = 1 → g.long = false → g.fu = .lsu → g.opc = 6 → g.got = [] → g.addrs ≠ [] →
      (∀ x, x ∈ g.addrs → x / 64 = r.gran) → (s.core g.core).ctx.crew = g.crew →
      ∃ t f, Gives .sharedScratchServe s t ∧ t.mem = s.mem ∧ t.ssmHeld = s.ssmHeld ∧ (∀ x, x ∈ t.ssm ↔ x ∈ s.ssm ∧ ¬(x.group = r.group ∧ x.gran = r.gran)) ∧
        (t.core g.core).inflight = (s.core g.core).inflight ++ [f] ∧ f.fu = .lsu ∧ f.due = (s.core g.core).age + g.base ∧
        f.writes = toD (BitVec.ofNat 64 (ofBytes (g.addrs.map (Memory.read s.mem))))))

/-- R286-R292: launch packets. A host's 64-byte write places a packet in a queue with room and is otherwise dropped and counted; INVOKE
completes with NOT_RESIDENT or BAD_ARGS, waits, or starts a graph instance; BARRIER waits for its signals, aborts on a negative one and times
out where nothing earlier in its chain ends it; SIGNAL changes a signal as one step; COPY goes to a copy engine of the partition and moves 8 MiB
at a time, or gives its 64 bytes to a launch queue; RESET makes an aborted queue run again. A packet that completes leaves its queue with its code in STAT. What the hub reads and when a COPY packet starts are logs 45
and 46. -/
def Obligations.LaunchPackets : Prop := ∀ s : State,
  let p := s.turn.part
  let q := s.turn.queue
  let n := s.turn.item
  let y := s.part p
  let d := y.queue q
  let queue : State → LaunchQ := fun t => (t.part p).queue q
  let ends : Instr → Nat → (State → Prop) → Prop := fun i code f => ∃ t, Gives i s t ∧ f t ∧
    (∀ k, k ∈ (queue t).pkts ↔ k ∈ d.pkts ∧ k.seq ≠ n) ∧ (queue t).stat.get (n % 64) 0 = BitVec.ofNat 64 (n * 65536 + code) ∧
    (t.part p).msix.getLsbD 3 = true
  let still : State → Prop := fun t => t.mem = s.mem
  let sig : BitVec 16 → BitVec 48 → Nat := fun x o => hAddr (y.exportAt x.toNat) o.toNat
  let word : Nat → Nat := fun x => ofBytes (Memory.readN s.mem x 8)
  s.bins = [] → Memory.wf s.mem = true → d.csx = 0 →
  (∀ off bytes pkt, let i := Instr.launchPacketWrite (BitVec.ofNat 6 p) (BitVec.ofNat 4 q) off bytes pkt
    p < 64 → q < 16 →
    (d.v = true → off = 0 → bytes = 64 → d.pkts.length < 64 → ∃ t x, Gives i s t ∧ t = { s with parts := t.parts } ∧
      queue t = { d with seq := d.seq + 1, pkts := d.pkts ++ [x] } ∧ x.bits = pkt ∧ x.seq = d.seq.toNat ∧ x.started = none) ∧
    (d.v = true → off.toNat < 64 → off ≠ 0 ∨ bytes ≠ 64 ∨ 64 ≤ d.pkts.length → ∃ t, Gives i s t ∧ t = { s with parts := t.parts } ∧
      (queue t).drops.toNat = min (d.drops.toNat + 1) 65535 ∧ queue t = { d with drops := (queue t).drops }) ∧
    (d.v = false ∨ 64 ≤ off.toNat → Gives i s s)) ∧
  (∀ k, s.turnPkt = some k → k.started = none →
    (∀ b : InvokePkt,
      let x := y.slot b.slot.toNat
      let hs := (invokeIndices b).map (fun j => y.exportAt j.toNat)
      let ok := s.argsOk p (hs.getD b.argent.toNat 0) b.argoff.toNat x.graph
      (s.slotResident x = false → ends (.invoke b) 1 still) ∧ (s.slotResident x = true → ok = false → ends (.invoke b) 2 still) ∧
      -- a COPY packet that stands half made in an argument record is waited for as well (R364)
      let torn := s.argsTorn (hs.getD b.argent.toNat 0) b.argoff.toNat x.graph
      (s.slotResident x = true → ok = true → 65536 < s.nodes.length + x.graph.length ∨ s.rcbFree = false ∨ torn = true → Gives (.invoke b) s s) ∧
      (s.slotResident x = true → ok = true → s.nodes.length + x.graph.length ≤ 65536 → s.rcbFree = true → torn = false → x.graph ≠ [] →
        ∃ t i g, Gives (.invoke b) s t ∧ t.mem = s.mem ∧ t.insts.find i = some g ∧ g.part = p ∧ g.slot = b.slot.toNat ∧ g.queue = q ∧ g.seq = n ∧
          g.nodes.length = x.graph.length ∧ g.htab = startTable hs x.bufs ∧ g.nent = 7 + x.nhand.toNat ∧
          ((t.part p).slot b.slot.toNat) = { x with rcnt := x.rcnt + 1 } ∧
          ∀ j, j ∈ (queue t).pkts → j.seq = n → j.started = some s.tick ∧ j.inst = some i)) ∧
    (∀ b : BarrierPkt,
      let cs := [b.c0, b.c1, b.c2, b.c3]
      let hs := cs.map (fun c => y.exportAt c.xh.toNat)
      let used : Nat → BarCond → Prop := fun j c => cs[j]? = some c ∧ b.use.getLsbD j = true
      let val : BarCond → Int := fun c => (BitVec.ofNat 64 (word (sig c.xh c.off))).toInt
      (b.use = 0 → ends (.barrier b) 0 still) ∧
      (∀ j c, used j c → (s.hubCap p (y.exportAt c.xh.toNat) (c.off.toNat : Int) 8 .r).isSome = true → ends (.barrier b) 2 still) ∧
      ((∀ j c, used j c → (s.hubCap p (y.exportAt c.xh.toNat) (c.off.toNat : Int) 8 .r) = none ∧ s.bufPoisoned (sig c.xh c.off) 8 = false) → b.use ≠ 0 →
        (∀ j c, used j c → val c < 0 → (∀ m e, m < j → used m e → 0 ≤ val e) →
          ends (.barrier b) 6 (fun t => (queue t).acode.toNat = (b.acode.toNat + j + 1) % 2 ^ 32 ∧ (d.st ≠ .suspended → (queue t).st = .aborted))) ∧
        ((∀ j c, used j c → 0 ≤ val c) →
          ((if b.any then ∃ j c, used j c ∧ val c = 0 else ∀ j c, used j c → val c = 0) → ends (.barrier b) 0 still) ∧
          (¬(if b.any then ∃ j c, used j c ∧ val c = 0 else ∀ j c, used j c → val c = 0) → ∃ t, Gives (.barrier b) s t ∧
            t = { s with parts := t.parts, exts := t.exts } ∧ ∀ j, j ∈ (queue t).pkts → j.seq = n → j.started = some s.tick ∧ j.hs = hs)))) ∧
    (∀ b : SignalPkt,
      let h := y.exportAt b.xh.toNat
      let x := sig b.xh b.off
      let bad := (s.hubCap p h (b.off.toNat : Int) 8 .w).isSome || isWindow h
      (bad = true → ends (.signal b) 7 still) ∧
      (bad = false → ends (.signal b) 0 (fun t =>
        Holds s t x (toBytes (if b.op then b.value.toNat else (word x + b.value.toNat) % 2 ^ 64) 8)))) ∧
    (∀ b : CopyPkt, (∀ a, s.active s.turn.engine = some a → a.ent.pkt ≠ some (p, q, n)) →
      let h0 := y.exportAt b.sxh.toNat
      let h1 := y.exportAt b.dxh.toNat
      (b.len = 0 → ends (.copyPacket b) 0 still) ∧ (b.len ≠ 0 → copyPktChk b s p h0 h1 = false → ends (.copyPacket b) 7 still) ∧
      (b.len ≠ 0 → copyPktChk b s p h0 h1 = true → (∃ e, e ∈ s.copyEngines p ∧ (s.eng e).queue.length < 16) → ∃ t e x,
        Gives (.copyPacket b) s t ∧ t.mem = s.mem ∧ e ∈ s.copyEngines p ∧ t.eng e = { s.eng e with queue := (s.eng e).queue ++ [x] } ∧
        x.pkt = some (p, q, n) ∧ x.h0 = h0 ∧ x.h1 = h1 ∧ x.part = p ∧ ∀ j, j ≠ e → t.eng j = s.eng j)) ∧
    (∀ b : ResetPkt, (d.pkts.head?.map (fun x => x.seq) = some n → d.st = .running ∨ d.st = .aborted →
        ends (.reset b) 0 (fun t => t.mem = s.mem ∧ (queue t).st = .running ∧ (queue t).acode = 0)) ∧
      (d.pkts.head?.map (fun x => x.seq) ≠ some n ∨ d.st = .frozen ∨ d.st = .suspended → Gives (.reset b) s s))) ∧
  (∀ k b t0, s.turnPkt = some k → decodePacket k.bits = some (.barrier b) → k.started = some t0 →
    (b.tout ≠ 0 → t0 + b.tout.toNat ≤ s.tick → s.evalBarrier b k.hs = .wait → ends .barrierTimeout 5 still) ∧
    (b.tout ≠ 0 → t0 + b.tout.toNat ≤ s.tick → s.evalBarrier b k.hs = .bad → ends .barrierTimeout 2 still) ∧
    (b.tout ≠ 0 → t0 + b.tout.toNat ≤ s.tick → s.evalBarrier b k.hs = .ok → ends .barrierTimeout 0 still) ∧
    (∀ j, b.tout ≠ 0 → t0 + b.tout.toNat ≤ s.tick → s.evalBarrier b k.hs = .abort j → ends .barrierTimeout 6 (fun t =>
      (queue t).acode.toNat = (b.acode.toNat + j + 1) % 2 ^ 32)) ∧
    (b.tout = 0 ∨ s.tick < t0 + b.tout.toNat → Gives .barrierTimeout s s)) ∧
  (∀ (b : CopyPkt) (a : Act), Ready (copyPktEnt b) s a → a.ent.pkt = some (p, q, n) →
    let o := a.prog * 2 ^ 23
    let m := min (2 ^ 23) (b.len.toNat - o)
    let so := hAddr a.ent.h0 (b.soff.toNat + o)
    let da := hAddr a.ent.h1 (b.doff.toNat + o)
    isWindow a.ent.h1 = false → o < b.len.toNat → Readable s so m → Writable s da m → ∃ t, Gives (.copyPacket b) s t ∧ EngineOnly s t ∧
      Moved s t (a.prog + 1) (decide (b.len.toNat ≤ o + 2 ^ 23)) ∧ Holds s t da (Memory.readN s.mem so m)) ∧
  -- to a window handle it is one packet (R287)
  (∀ (b : CopyPkt) (a : Act), Ready (copyPktEnt b) s a → a.ent.pkt = some (p, q, n) → isWindow a.ent.h1 = true → b.len ≠ 0 →
    Readable s (hAddr a.ent.h0 b.soff.toNat) 64 →
    let w := windowQueue a.ent.h1
    let e := (s.part w.1).queue w.2
    e.pkts.length < 64 → ∃ t, Gives (.copyPacket b) s t ∧ t.mem = s.mem ∧ Moved s t 0 true ∧
      (t.part w.1).queue w.2 = e.accept (BitVec.ofNat 512 (ofBytes (Memory.readN s.mem (hAddr a.ent.h0 b.soff.toNat) 64))))

/-- R37, R40-R43, R48, R140, R347-R350: the graph scheduler. The head of a class's highest level goes to the site with the most free cores that can
hold it, as a crew that reserves its cores, and an item whose first open class is another moves to that one's list; a loaded crew starts each strand at its overlay's entry with its index, its width and its
arguments; a crew that is done gives its cores back, and with its node's last instance each successor waits for one less; a ready item that
has waited its AGE rises one level; GO loads a boot-mailbox strand on a free core. That an item moves to its first open class is log 52; that the
registers of a core whose strand retired keep their values until a strand starts there is R140's, where R43 only says that nothing keeps them. -/
def Obligations.GraphScheduling : Prop := ∀ s : State,
  let k := s.turn.crew
  let c := s.crew k
  (∀ r, s.ready.find? (fun x => x.stamp == s.turn.item) = some r →
    let n := s.node r.node
    let halted := (s.part r.part).suspended || s.partCutting r.part
    (halted = true ∨ s.candidate r.part r.cls ≠ some r → Gives .nodeDispatch s s) ∧
    (halted = false → s.candidate r.part r.cls = some r →
      (s.firstPref n = none → ∃ t f, Gives .nodeDispatch s t ∧ t.mem = s.mem ∧ (∀ x, x ∈ t.ready ↔ x ∈ s.ready ∧ x.stamp ≠ r.stamp) ∧
        t.agenda = .run { Turn.zero with part := s.nodePart n, item := r.node, fault := some f } .fault :: s.agenda ∧ f.code = cNO_CLASS) ∧
      (∀ f, s.firstPref n = some f → f.cls.toNat ≠ r.cls → ∃ t, Gives .nodeDispatch s t ∧ t = { s with ready := t.ready } ∧
        ∀ x, x ∈ t.ready ↔ (x ∈ s.ready ∧ x.stamp ≠ r.stamp) ∨ x = { r with cls := f.cls.toNat }) ∧
      (∀ f, s.firstPref n = some f → f.cls.toNat = r.cls →
        (s.placeSite r.part r.cls n = none → Gives .nodeDispatch s s) ∧
        (∀ site, s.placeSite r.part r.cls n = some site → s.pinRoom site ((s.inst n.rcb).htab.map (fun x => hBid x.2)) = true →
          (s.canPlace r.part r.cls site n = true ∧ ∀ j, j < 16 → s.canPlace r.part r.cls j n = true →
            (s.freeCores r.part j).length ≤ (s.freeCores r.part site).length) ∧
          ∃ t j e, Gives .nodeDispatch s t ∧ t.mem = s.mem ∧ t.crews.find j = some e ∧ e.node = r.node ∧ e.gx = r.gx ∧ e.gy = r.gy ∧
            e.part = r.part ∧ e.rcb = n.rcb ∧ e.site = site ∧ e.st = .loading ∧ e.cores = (s.freeCores r.part site).take n.crewWidth ∧
            e.scrLen = n.scr.toNat * 65536 ∧ e.flagLen = n.flags.toNat ∧ e.htab = (s.inst n.rcb).htab ∧ (∀ x, x ∈ t.ready ↔ x ∈ s.ready ∧ x.stamp ≠ r.stamp) ∧
            (n.grid = false → (t.node r.node).st = .dispatched))))) ∧
  (s.crewLoaded k = false → Gives .strandStart s s) ∧
  (∀ o, s.crewLoaded k = true → c.rcb ≠ 0 → s.crewOverlay c = some o →
    ∃ t, Gives .strandStart s t ∧ (t.crew k).st = .running ∧ ((s.node c.node).grid = false → (t.node c.node).st = .running) ∧
      (∀ n, n ∈ c.cores → (t.core n).mode = .run ∧
        (let x := (t.core n).ctx
         x.pc = o.entry.setWidth 64 ∧ x.srf.get 0 0 = BitVec.ofNat 64 (c.indexOf n) ∧ x.srf.get 1 0 = BitVec.ofNat 64 c.cores.length ∧
         (∀ j, j < 8 → x.srf.get (2 + j) 0 = BitVec.ofNat 64 ((s.node c.node).args.toNat / 2 ^ (64 * j))) ∧
         x.vshape = o.vshape ∧ x.vconf = o.vconf ∧ x.tvec = o.trap ∧ x.htab = c.htab ∧ x.crew = k ∧ x.part = c.part)) ∧
      (∀ a, a < c.scrLen → Memory.wf s.mem = true → Memory.read t.mem (ssmAddr c.site c.scr + a) = 0)) ∧
  (s.crewDone k = false → Gives .nodeRetire s s) ∧
  (∀ n off h, s.crewDone k = true → c.rcb ≠ 0 → s.crewUnresolved k = some (n, off, h) → ∃ t f, Gives .nodeRetire s t ∧ t.mem = s.mem ∧
    t.agenda = .run { Turn.zero with core := n, crew := k, fault := some f } .fault :: s.agenda ∧ f.code = cSTORE_UNRESOLVED ∧ f.handle = h) ∧
  (s.crewDone k = true → c.rcb = 0 ∨ s.crewUnresolved k = none → ∃ t, Gives .nodeRetire s t ∧
    (∀ n, n ∈ c.cores → (t.core n).mode = .idle ∧
      (let x := (s.core n).ctx
       let y := (t.core n).ctx
       y.crew = 0 ∧ y.srf = x.srf ∧ y.vrf = x.vrf ∧ y.mrf = x.mrf ∧ y.prf = x.prf ∧ y.crf = x.crf ∧ y.lanes = x.lanes)) ∧
    (∀ j, c.rcb ≠ 0 → (s.node c.node).grid = false → (s.node c.node).done = [] → (s.node c.node).succs.Nodup → j ∈ (s.node c.node).succs →
      j ≠ c.node → j ∈ (s.inst (s.node c.node).rcb).nodes → (s.node j).st = .waiting → 2 ≤ (s.node j).pend.toNat →
      (t.node j).pend = (s.node j).pend - 1)) ∧
  ((∀ r, r ∈ s.ready → s.agesNow r = false) → Gives .ageing s s) ∧
  (∀ r, s.ready = [r] → s.agesNow r = true → ∃ t, Gives .ageing s t ∧ t = { s with ready := t.ready, stamp := t.stamp } ∧
    t.ready = [{ r with level := r.level + 1, arrive := s.tick, aged := s.tick, stamp := s.stamp, fresh := false }]) ∧
  (∀ core : BitVec 8,
    let n := core.toNat
    let st := (s.core n).mbState
    let held := s.crews.any (fun x => x.2.st != .out && x.2.cores.contains n)
    (s.isCore n = false → Gives (.go core) s s) ∧
    (s.isCore n = true → st = 1 ∨ st = 2 ∨ (st ≠ 4 ∧ held = true) → ∃ t, Gives (.go core) s t ∧ t = { s with cores := t.cores } ∧
      t.core n = { s.core n with mbState := 5 } ∧ ∀ m, m ≠ n → t.core m = s.core m) ∧
    (∀ im prog, s.bins = [] → s.isCore n = true → st = 0 ∨ st = 3 ∨ st = 5 → held = false → s.mailboxOverlay n = some (im, prog) → ∃ t j e,
      Gives (.go core) s t ∧ t.mem = s.mem ∧ (t.core n).mbState = 1 ∧ t.crews.find j = some e ∧ e.cores = [n] ∧ e.rcb = 0 ∧ e.node = 0xFFFF ∧
      e.st = .loading))

/-- R21, R28, R66-R68, R353, R423, R424: slices, cuts, sites and heat. A slice that is over goes to its holder again or starts a cut; a cut
suspends its partition's queues and asks its strands to stop; a complete cut switches its gangs out with their contexts, which go from the
pre-emption slots to memory, and a gang is staged in those slots and comes back with them; a site changes state as R353 allows; the governor moves at most one class by one step of 100 MHz (which
and when is log 65), and 105 degrees C at a MEM, hub or link shuts the package down (log 58). A cut, a switch and a change of a site leave
memory. -/
def Obligations.SlicesSitesAndHeat : Prop := ∀ (s : State) (site : BitVec 5),
  let k := s.turn.item
  let p := s.turn.part
  let n := site.toNat
  let d := s.siteDisc n
  let moved : Instr → SiteSt → Prop := fun i x => ∃ t, Gives i s t ∧ t.mem = s.mem ∧
    -- a site that leaves calibrating for ready takes the running firmware's microcode
    (let new := decide (d.st = .calibrating ∧ x = .ready)
     t.siteDisc n = { d with
       st := x, schg := d.schg + 1, tchg := BitVec.ofNat 64 s.tick, fwver := if new then Config.imageFw s.mgmt.image n else d.fwver } ∧
     (new = true → t.mgmt.ucode.get n [] = Config.imageMicrocode s.mgmt.image n)) ∧
    (x = .absent → ∀ k, n ∉ t.fabric.get k [])
  (s.slices.find k = none → Gives .sliceEnd s s) ∧
  (∀ x, s.slices.find k = some x →
    (x.cutting = true ∨ (s.now < x.ends ∧ s.hasWork x.part k = true) → Gives .sliceEnd s s) ∧
    (x.cutting = false → x.ends ≤ s.now ∨ s.hasWork x.part k = false →
      (s.nextSlice x.part k = x.part → Gives .sliceEnd s { s with
        slices := s.slices.set k { part := x.part, ends := s.now + 300000 * (1 + s.effPrio (1 + x.part)), cutting := false } }) ∧
      (s.nextSlice x.part k ≠ x.part → k < 1024 → ∃ t, Gives .sliceEnd s t ∧ t.mem = s.mem ∧
        (t.slices.get k Slice.zero).part = x.part ∧ (t.slices.get k Slice.zero).cutting = true))) ∧
  ((∀ j, j ∈ s.cutCrews p k → (s.crew j).st ≠ .loading) → ∃ t, Gives .cut s t ∧ t.mem = s.mem ∧
    (∀ q e, (s.part p).queues.find q = some e → e.st ≠ .suspended →
      ((t.part p).queue q).st = .suspended ∧ ((t.part p).queue q).before = e.st) ∧
    (∀ j m, j ∈ s.cutCrews p k → m ∈ (s.crew j).cores → (s.core m).mode = .run → (t.core m).stopReq = some .cut) ∧
    t.cutting p k = true) ∧
  (s.cutting p k = true → s.cutDone p k = false → Gives .contextSwitch s s) ∧
  (∀ j, s.cutting p k = true → s.cutDone p k = true → s.cutCrews p k = [j] → (∀ y, y ∈ s.saved → y.crew ≠ j) →
    ∃ t g, Gives .contextSwitch s t ∧ t.mem = s.mem ∧
    (t.crew j).st = .out ∧ g ∈ t.saved ∧ g.crew = j ∧ g.st = (s.crew j).st ∧
    g.ctxs = (s.crew j).cores.map (fun m => (m, (s.core m).ctx.saveImage)) ∧ g.place = .outgoing ∧ (k = 1024 → (t.part p).cutting = false) ∧
    g.lacs = (s.crew j).cores.map (fun m => (m, (s.core m).ctx.lacDirty)) ∧
    (∀ m w, (m, w) ∈ g.heads → m ∈ (s.crew j).cores ∧ ((s.core m).preempt ≠ none → w = (s.core m).preHead) ∧
      ((s.core m).preempt = none → w.toNat / 2 ^ 32 % 2 ^ 8 = m % 256 ∧
        w.toNat / 2 ^ 40 % 2 ^ 8 = (s.core m).ctx.part % 256 ∧ w.toNat / 2 ^ 48 % 2 ^ 16 = s.mgmt.layout % 2 ^ 16 ∧
        w.toNat / 2 ^ 128 % 2 ^ 128 = (s.core m).ctx.toSlot.vmap.toNat)) ∧
    ∀ e q, q ∈ (t.eng e).queue → q.crew ≠ j ∨ q.pkt ≠ none) ∧
  (s.cutting p k = false → ∀ g, s.saved.find? (fun x => x.crew == s.turn.crew) = some g →
    let cores := (s.crew g.crew).cores
    let ours : Saved → Prop := fun y => ∃ m x, (m, x) ∈ y.ctxs ∧ m ∈ cores
    (g.place = .outgoing → ∃ t, Gives .contextSwitch s t ∧ t = { s with saved := t.saved } ∧
      t.saved.length = s.saved.length ∧ ∀ y, y ∈ t.saved → y.crew = g.crew → y.ctxs = g.ctxs → y.ctxs ≠ [] → y.place = .memory) ∧
    (g.place = .memory → s.stageable g = false → Gives .contextSwitch s s) ∧
    -- staged, its contexts take the pre-emption slots of its cores from whatever stood there
    (s.stageable g = true → ∃ t, Gives .contextSwitch s t ∧ t = { s with saved := t.saved } ∧
      t.saved.map (fun y => { y with place := .memory }) = s.saved.map (fun y => { y with place := .memory }) ∧
      ∀ y, y ∈ t.saved → (y.crew = g.crew → y.place = .incoming []) ∧ (y.crew ≠ g.crew → ours y → y.place = .memory)) ∧
    (∀ b, g.place = .incoming b →
      (s.restorable g = false → Gives .contextSwitch s s) ∧
      (s.restorable g = true → g.st ≠ .faulted → (g.ctxs.map (fun x => x.1)).Nodup → ∃ t, Gives .contextSwitch s t ∧ t.mem = s.mem ∧
        (t.crew g.crew).st = g.st ∧ (∀ y, y ∈ t.saved → y.crew ≠ g.crew) ∧
        ∀ m x, (m, x) ∈ g.ctxs → (t.core m).ctx = (x.loadImage s.tick).unparkLongs false ∧
          (t.core m).badRestore = decide (m ∈ g.bad ∨ m ∈ b)))) ∧
  (∀ x, siteMove n d.st x = false ∨ 27 ≤ n → Gives (.siteStateChange site x) s s) ∧
  (∀ x, siteMove n d.st x = true → n < 27 → x ≠ .absent → ¬(x = .fenced ∧ d.st = .draining ∧ s.siteIdle n = false) →
    moved (.siteStateChange site x) x) ∧
  (siteMove n d.st .absent = true → n < 27 → 24 ≤ n → moved (.siteStateChange site .absent) .absent) ∧
  (d.st = .draining → s.siteIdle n = true → moved (.drainComplete site) .fenced) ∧
  (d.st ≠ .draining ∨ s.siteIdle n = false → Gives (.drainComplete site) s s) ∧
  (d.st ≠ .calibrating → ∀ ok, Gives (.calibrationDone site ok) s s) ∧
  (d.st = .calibrating → moved (.calibrationDone site false) .fenced ∧ moved (.calibrationDone site true) .ready) ∧
  (n < 24 → d.st = .draining → n ∉ s.forced → ∃ t, Gives (.forcedDrain site) s t ∧ n ∈ t.forced ∧ n ∉ t.errored) ∧
  (24 ≤ n → Gives (.forcedDrain site) s s) ∧
  (∃ t, Gives .governorStep s t ∧ t = { s with draws := s.draws + 1, governor := t.governor } ∧
    (let g := s.governor
     let h := t.governor
     let high := decide (s.tick % 1000 = 0 ∧ 3200000 < h.power)
     let low := decide (h.power * 100 < 3200000 * 95)
     let back := low && decide (100 ≤ g.below + 1)
     let same : Prop := h.set = g.set ∧ h.lowered = g.lowered
     let only : Nat → Prop := fun j => ∀ m, m < 4 → m ≠ j → h.clock m = g.clock m
     h.run = g.run ∧ h.below = (if low && !back then g.below + 1 else 0) ∧ (high = false → back = false → same) ∧
     -- the class furthest above its budgets takes one step of 100 MHz down, none below 1.5 GHz
     (high = true → ((∀ j, j < 4 → g.clock j ≤ 15) → same) ∧
       ((∃ j, j < 4 ∧ 15 < g.clock j) → ∃ j, j < 4 ∧ 15 < g.clock j ∧ h.clock j + 1 = g.clock j ∧ only j ∧ h.lowered = computeCls j :: g.lowered ∧
         ∀ m, m < 4 → 15 < g.clock m → s.excess m ≤ s.excess j)) ∧
     -- or the last step down is taken back
     (back = true → (g.lowered = [] → same) ∧
       ∀ c l, g.lowered = c :: l → c.code < 4 → g.clock c.code < 31 → h.clock c.code = g.clock c.code + 1 ∧ only c.code ∧ h.lowered = l))) ∧
  (n < 16 → Gives (.thermalLimit site .warm) s { s with governor := s.governor.lower (s.cls n).code }) ∧
  (16 ≤ n → n < 27 → ∃ t, Gives (.thermalLimit site .hot) s t ∧ t.hostLinkDown = true) ∧ (27 ≤ n → ∀ x, Gives (.thermalLimit site x) s s)

/-- R65, R66, R285, R409: a command on faulted nodes is refused with BAD_CMD, DENIED or NOT_FAULTED and changes nothing else; RESUME puts the
context of the pre-emption slot back; SKIP passes an engine's fault over and refuses any other; ABORT_NODE and ABORT_GRAPH end a node and an
instance; KILL empties the partition's queues; SUSPEND cuts the whole partition and CONTINUE releases it. Each clears BUSY and writes
STATUS. -/
def Obligations.FaultCommands : Prop := ∀ (s : State) (w : Word),
  let p := s.turn.part
  let k := w.toNat
  let n := s.node k
  let page : State → Nat → Prop := fun t status => (t.part p).busy = false ∧ (t.part p).status = BitVec.ofNat 16 status ∧
    (t.part p).msix.getLsbD 2 = true
  let refuses : Instr → Nat → Prop := fun i status => ∃ t, Gives i s t ∧ page t status ∧ t = { s with parts := t.parts } ∧
    ∀ j, j ≠ p → t.part j = s.part j
  let does : Instr → (State → Prop) → Prop := fun i f => ∃ t, Gives i s t ∧ page t 0 ∧ f t
  (s.nodeStatus p w ≠ 0 → ∀ i, i ∈ [Instr.resume w, .skip w, .abortNode w] → refuses i (s.nodeStatus p w)) ∧
  (s.nodeStatus p w = 0 →
    (∀ f c, n.fault = some f → f.src = 0 → f.code ≠ cNO_CLASS → s.crewsOf k = [c] → (s.crew c).st = .faulted →
      does (.resume w) (fun t => t.mem = s.mem ∧ (t.node k).fault = none ∧ (n.grid = true → (t.node k).st = .running) ∧
        (n.grid = false → (n.before ≠ .suspended → (t.node k).st = n.before) ∧
          (n.before = .suspended → (t.node k).st = if (s.crew c).before = .draining then .draining else .running))) ∧
      (∀ m x, (s.crew c).cores = [m] → (s.core m).mode = .stopped → (s.core m).preempt = some x → does (.resume w) (fun t =>
        (t.core m).ctx = { x with
          vxuLong := x.vxuLong.map (LongOp.unpark false), vlsLong := x.vlsLong.map (LongOp.unpark false), dirty := 0, lacDirty := 0 } ∧
        (t.core m).preempt = none ∧ (s.underCut c = true → (t.core m).stopReq = some .cut) ∧ (t.core m).mode = (if x.nopw = 0 then .run else .pause) ∧ (t.crew c).st = (s.crew c).before)) ∧
      -- a strand that was frozen where it stood keeps its marks of changes
      (∀ m, (s.crew c).cores = [m] → (s.core m).mode = .stopped → (s.core m).preempt = none → does (.resume w) (fun t =>
        (t.core m).ctx.dirty = (s.core m).ctx.dirty ∧ (t.core m).ctx.lacDirty = (s.core m).ctx.lacDirty ∧
        (t.core m).ctx.vrf = (s.core m).ctx.vrf ∧ (t.core m).ctx.pc = (s.core m).ctx.pc))) ∧
    (∀ f c, n.fault = some f → f.src = 0 → f.code ≠ cNO_CLASS → s.crewsOf k = [c] → (s.crew c).st = .out →
      does (.resume w) (fun t => t.mem = s.mem ∧ (t.node k).st = .suspended ∧ ∀ g, g ∈ t.saved → g.crew = c → (s.crew c).before ≠ .faulted → g.st ≠ .faulted)) ∧
    (∀ f, n.fault = some f → f.src ≠ 1 → refuses (.skip w) 2) ∧
    (∀ f, n.fault = some f → f.src = 1 → f.eng ≠ 7 * 2 ^ 5 → does (.skip w) (fun t => (t.node k).fault = none)) ∧
    does (.abortNode w) (fun t => (t.node k).st = .aborted ∧ (t.node k).fault = none ∧ ∀ r, r ∈ t.ready → r.node ≠ k)) ∧
  (32768 ≤ k ∨ s.insts.find k = none → refuses (.abortGraph w) 9) ∧
  (∀ x, k < 32768 → s.insts.find k = some x →
    (x.part ≠ p → refuses (.abortGraph w) 8) ∧
    (x.part = p → does (.abortGraph w) (fun t => (∀ e, e ∈ t.nodes → e.1 ∉ (s.inst k).nodes) ∧ ∀ r, r ∈ t.ready → r.node ∉ (s.inst k).nodes))) ∧
  does .kill (fun t => (t.part p).suspended = false ∧ ∀ q, ((t.part p).queue q).pkts = []) ∧
  ((s.part p).suspended = true → refuses .suspend 0) ∧
  ((s.part p).suspended = false → does .suspend (fun t => t.mem = s.mem ∧ (t.part p).suspended = true ∧ (t.part p).cutting = true ∧
    ∀ q e, (s.part p).queues.find q = some e → ((t.part p).queue q).st = .suspended)) ∧
  does .continueCmd (fun t => t = { s with parts := t.parts } ∧ (t.part p).suspended = false ∧
    ((s.part p).cutting = false → s.slices = [] → ∀ q e, (s.part p).queues.find q = some e →
      ((t.part p).queue q).st = if e.st = .suspended then e.before else e.st))

/-- R27, R47, R62, R252, R259, R287, R288, R353, R356-R360, R363, R407, R409-R411: what a partition's owner does to its resources. A command
whose arguments name nothing of the partition's is refused with its status and changes nothing else; the others have the effect that their
rules give, and memory stays but for what LOAD fills. A host's aperture reads and writes through an exported handle, a refused access is
counted, and a read of a poisoned granule completes poisoned. What the spec leaves open of the commands, the images and the aperture is logs 47,
48 and 54, and which REASON answers a LOAD that more than one check refuses is log 77. -/
def Obligations.OwnerCommands : Prop := ∀ (s : State) (w x0 x1 x2 x3 : Word),
  let p := s.turn.part
  let y := s.part p
  let k := w.toNat
  let r := s.rcb k
  let page : State → Nat → Prop := fun t status => (t.part p).busy = false ∧ (t.part p).status = BitVec.ofNat 16 status
  let refuses : Instr → Nat → Prop := fun i status => ∃ t, Gives i s t ∧ page t status ∧ t = { s with parts := t.parts } ∧
    ∀ j, j ≠ p → t.part j = s.part j
  let does : Instr → (State → Prop) → Prop := fun i f => ∃ t, Gives i s t ∧ page t 0 ∧ f t
  let site : Instr → SiteSt → SiteSt → Prop := fun i need st =>
    (s.siteStatus p w need ≠ 0 → refuses i (s.siteStatus p w need)) ∧
    (s.siteStatus p w need = 0 → (i = .drain w → s.siteOwners k = [p]) → does i (fun t => t.mem = s.mem ∧
      t.siteDisc k = { s.siteDisc k with st := st, schg := (s.siteDisc k).schg + 1, tchg := BitVec.ofNat 64 s.tick }))
  let load := Instr.load w x0 x1 x2 x3
  let hs := [x0, x1, x2, x3].map (fun i => y.exportAt i.toNat)
  let slot := y.slot k
  let unbinned : Prop := s.bins = []
  (256 ≤ k ∨ (slot.state ≠ 0 ∧ slot.state ≠ 4) → refuses load 9) ∧
  (k < 256 → slot.state = 0 ∨ slot.state = 4 → unbinned →
    (s.loadImages p hs = none → does load (fun t => t.mem = s.mem ∧ ((t.part p).slot k).state = 4 ∧ ((t.part p).slot k).reason = 5)) ∧
    (∀ ims, s.loadImages p hs = some ims →
      (s.imageReason ims ≠ 0 → does load (fun t => t.mem = s.mem ∧ ((t.part p).slot k).state = 4 ∧
        ((t.part p).slot k).reason = BitVec.ofNat 5 (s.imageReason ims))) ∧
      (s.imageReason ims = 0 → does load (fun t => ((t.part p).slot k).sgen = slot.sgen + 1 ∧
        (((t.part p).slot k).state = 2 ∧ ((t.part p).slot k).images = ims ∨ ((t.part p).slot k).state = 4 ∧ ((t.part p).slot k).reason = 7))))) ∧
  (256 ≤ k ∨ (slot.state ≠ 2 ∧ slot.state ≠ 3) → refuses (.unpin w) 9) ∧
  (k < 256 → slot.state = 2 → (∃ e, e ∈ s.insts ∧ e.2.part = p ∧ e.2.slot = k) → does (.unpin w) (fun t => t.mem = s.mem ∧
    (t.part p).slot k = { slot with state := 3 })) ∧
  (k < 256 → slot.state = 2 → (∀ e, e ∈ s.insts → ¬(e.2.part = p ∧ e.2.slot = k)) → does (.unpin w) (fun t => t.mem = s.mem ∧
    ((t.part p).slot k).state = 0 ∧ ((t.part p).slot k).sgen = slot.sgen)) ∧
  (let why := s.allocReason w x0 (1 + p) p none
   (why ≠ 0 → ∃ t, Gives (.halloc w x0) s t ∧ page t 10 ∧ (t.part p).cw.get 1 0 = BitVec.ofNat 64 why ∧ t = { s with parts := t.parts }) ∧
   (why = 0 → does (.halloc w x0) (fun t => ∃ bid, (t.buf bid).state = 1 ∧ (t.buf bid).size = w.toNat ∧ (t.buf bid).refs = 1 ∧
     (t.buf bid).orcb = 1 + p ∧ (t.part p).cw.get 0 0 = mkHandle bid (t.buf bid).gen.toNat 15 0))) ∧
  (let ok := decide (k < 4096) && (s.hubBase p x0).isNone && decide (x0.toNat / 2 ^ 40 < 0xFFFC00)
   (k < 4096 → ok = false → refuses (.exportCmd w x0) 8) ∧
   (ok = true → k ≠ 0 → does (.exportCmd w x0) (fun t => t = { s with parts := t.parts } ∧ (t.part p).exports.get k 0 = x0 ∧
     ∀ j, j ≠ k → (t.part p).exports.get j 0 = y.exports.get j 0)) ∧ (ok = true → k = 0 → refuses (.exportCmd w x0) 0)) ∧
  (4096 ≤ k → refuses (.exportCmd w x0) 9) ∧
  (let ok := decide (k < 4096) && decide (x0.toNat < 16) && (y.queue x0.toNat).v
   (ok = false → refuses (.wexport w x0) 9) ∧ (ok = true → k ≠ 0 → does (.wexport w x0) (fun t => t = { s with parts := t.parts } ∧
     (t.part p).exports.get k 0 = mkHandle (0xFFFC00 + p * 16 + x0.toNat) 0 4 0))) ∧
  (32768 ≤ k → refuses (.rcbwr w x0 x1 x2 x3) 9) ∧
  (k < 32768 → (r.level ≠ 1 ∧ r.level ≠ 2) ∨ r.part.toNat ≠ p → refuses (.rcbwr w x0 x1 x2 x3) 8) ∧
  (k < 32768 → r.level = 1 ∨ r.level = 2 → r.part.toNat = p → unbinned → does (.rcbwr w x0 x1 x2 x3) (fun t => t.mem = s.mem ∧
    (let v := t.rcb k
     v = { r with inh := v.inh, prio := v.prio, ceil := v.ceil, policy := v.policy, budget := v.budget, binq := v.binq, age := v.age } ∧
     v.inh.toNat = x0.toNat / 2 ^ 51 % 2 ^ 5 ∧ v.prio.toNat = x0.toNat / 2 ^ 45 % 2 ^ 3 ∧ v.budget.toNat = x1.toNat / 2 ^ 32 ∧
     v.binq.toNat = x2.toNat / 2 ^ 32 ∧ v.age.toNat = max 10 (min 10000 (x3.toNat % 2 ^ 14))) ∧ ∀ j, j ≠ k → t.rcb j = s.rcb j)) ∧
  (s.rcbFree = false → refuses .jobnew 4) ∧
  (s.rcbFree = true → does .jobnew (fun t => t.mem = s.mem ∧ ∃ i, (t.part p).cw.get 0 0 = BitVec.ofNat 64 i ∧ (t.rcb i).level = 2 ∧
    (t.rcb i).part = BitVec.ofNat 6 p ∧ (t.rcb i).state = 1 ∧ (t.rcb i).parent = BitVec.ofNat 15 (1 + p) ∧ ∀ j, j ≠ i → t.rcb j = s.rcb j)) ∧
  (32768 ≤ k → refuses (.jobdel w) 9) ∧ (k < 32768 → s.isJob p k = false → refuses (.jobdel w) 8) ∧
  (k < 32768 → s.isJob p k = true → (∀ q, q ∈ y.queues → q.2.v = false ∨ q.2.job.toNat ≠ k) →
    (∀ q, q ∈ s.rcbs → q.2.level ≠ 3 ∨ q.2.parent.toNat ≠ k) → s.bufs = [] → does (.jobdel w) (fun t => t.mem = s.mem ∧ t.rcbs = s.rcbs.erase k)) ∧
  (let h := y.exportAt k
   let b := s.buf (h.toNat / 2 ^ 40)
   k < 4096 → x0.toNat < 32768 → x1.toNat < 32768 → x2.toNat < 32768 →
   (h = 0 ∨ b.orcb = 0 → refuses (.holdwr w x0 x1 x2) 8) ∧
   (h ≠ 0 → h.toNat / 2 ^ 40 < 0xFFFC00 → s.hubBase p h = none → b.orcb ≠ 0 → s.rcbOfPart p b.orcb = true → does (.holdwr w x0 x1 x2) (fun t =>
     t.mem = s.mem ∧ t.buf (h.toNat / 2 ^ 40) = { b with hold1 := x0.toNat, hold2 := x1.toNat, hold3 := x2.toNat }))) ∧
  (let job := x0.toNat % 2 ^ 15
   (16 ≤ k → refuses (.qcreate w x0 x1) 9) ∧ (k < 16 → (y.queue k).v = true → refuses (.qcreate w x0 x1) 6) ∧
   (k < 16 → (y.queue k).v = false → s.isJob p job = false → refuses (.qcreate w x0 x1) 8) ∧
   (k < 16 → (y.queue k).v = false → s.isJob p job = true → does (.qcreate w x0 x1) (fun t => t = { s with parts := t.parts } ∧
     (t.part p).queue k = { LaunchQ.zero with
       v := true, job := BitVec.ofNat 15 job, csx := BitVec.ofNat 16 (x1.toNat / 2 ^ 48), csoff := BitVec.ofNat 48 (x1.toNat % 2 ^ 48) }))) ∧
  (16 ≤ k ∨ (y.queue k).v = false → refuses (.qdestroy w) 9) ∧ (k < 16 → (y.queue k).v = true → (y.queue k).pkts ≠ [] → refuses (.qdestroy w) 6) ∧
  (k < 16 → (y.queue k).v = true → (y.queue k).pkts = [] → does (.qdestroy w) (fun t => t = { s with parts := t.parts } ∧
    (t.part p).queue k = LaunchQ.zero)) ∧
  site (.drain w) .ready .draining ∧ site (.recal w) .fenced .calibrating ∧ site (.returnCmd w) .fenced .ready ∧
  (let x := s.keys.get k Key.zero
   (2048 ≤ k → refuses (.keyreq w) 9) ∧ (k < 2048 → x.valid = true → x.part.toNat ≠ p → refuses (.keyreq w) 8) ∧
   (k < 2048 → x.valid = false ∨ x.part.toNat = p → x.nbuf ≠ 0 → refuses (.keyreq w) 5) ∧
   (k < 2048 → x.valid = false ∨ x.part.toNat = p → x.nbuf = 0 → does (.keyreq w) (fun t => t.mem = s.mem ∧
     t.keys.get k Key.zero = { x with asked := true, part := BitVec.ofNat 6 p }))) ∧
  (let i := y.fsel.toNat
   let g := s.ring i
   (i = 0 ∨ s.rcbOfPart p i = false → refuses (.frec w) 8) ∧
   (i ≠ 0 → s.rcbOfPart p i = true → g.recs.length < k → refuses (.frec w) 9) ∧
   (i ≠ 0 → s.rcbOfPart p i = true → k ≤ g.recs.length → does (.frec w) (fun t => t.mem = s.mem ∧ (t.ring i).recs = g.recs.drop k))) ∧
  (∀ (part : BitVec 6) (wr : Bool) (off : BitVec 30) (bytes : BitVec 7) (data : Bits512),
    let z := s.part part.toNat
    let h := z.exportAt z.axi.toNat
    let o : Nat := z.abase.toNat * 2 ^ 30 + off.toNat
    let n := bytes.toNat
    let bad := (s.hubCap part.toNat h (o : Int) n (if wr then .w else .r)).isSome || decide (0xFFFC00 ≤ h.toNat / 2 ^ 40)
    0 < n → n ≤ 64 →
    (bad = true → ∃ t, Gives (.apertureAccess part wr off bytes data) s t ∧ t = { s with parts := t.parts } ∧
      (t.part part.toNat).aperr.toNat = min (z.aperr.toNat + 1) (2 ^ 32 - 1) ∧
      -- a read completes as an Unsupported Request
      (wr = false → (t.part part.toNat).hostRead = [] ∧ (t.part part.toNat).hostStatus = 1)) ∧
    (bad = false → unbinned → Memory.wf s.mem = true →
      (wr = true → Writable s (hAddr h o) n → ∃ t, Gives (.apertureAccess part wr off bytes data) s t ∧ t.parts = s.parts ∧
        Holds s t (hAddr h o) ((List.range n).map (fun i => BitVec.ofNat 8 (data.toNat / 2 ^ (8 * i))))) ∧
      (wr = false → Readable s (hAddr h o) n → ∃ t, Gives (.apertureAccess part wr off bytes data) s t ∧ t.mem = s.mem ∧
        (t.part part.toNat).hostRead = Memory.readN s.mem (hAddr h o) n ∧ (t.part part.toNat).hostStatus = 0) ∧
      (wr = false → s.bufPoisoned (hAddr h o) n = true → ∃ t, Gives (.apertureAccess part wr off bytes data) s t ∧ t.mem = s.mem ∧
        (t.part part.toNat).hostRead.length = n ∧ (t.part part.toNat).hostStatus = 2))) ∧
  (∀ (part : BitVec 6) (m : Masks),
    let then_ : State := { s with parts := s.parts.set part.toNat { s.part part.toNat with masks := m } }
    (∀ n, n < 256 → m.core.getLsbD n = true → s.isCore n = true) → s.crews = [] →
    (∀ n, n < 256 → (then_.sharers (fun k => k.core.getLsbD n)).length ≤ 8) →
    (∀ a, a < 128 → (then_.sharers (fun k => k.array.getLsbD a)).length ≤ 8) →
    ∃ t, Gives (.maskWrite part m) s t ∧ t = { s with parts := t.parts, arrays := t.arrays } ∧
      t.part part.toNat = { s.part part.toNat with masks := m } ∧ ∀ j, j ≠ part.toNat → t.part j = s.part j) ∧
  (∀ (part : BitVec 6) (m : Masks) (n : Nat), n < 256 → m.core.getLsbD n = true → s.isCore n = false → ∃ t, Gives (.maskWrite part m) s t ∧
    t = { s with parts := t.parts } ∧ (t.part part.toNat).masks = (s.part part.toNat).masks) ∧
  (∀ (part : BitVec 6) (port : Bool),
    let busy := s.rcbs.any (fun q => decide (2 ≤ q.2.level.toNat) && q.2.part.toNat == part.toNat)
    ∃ t, Gives (.partitionPortMove part port) s t ∧ t = { s with parts := t.parts } ∧
      (t.part part.toNat).port = if busy then (s.part part.toNat).port else port)

/-- R5, R11, R47, R308, R360, R409-R414, R418-R421, R425: the registers, the management mailbox and the links. A write changes the fields of
Access RW; IMGOPEN, IMGWRITE and IMGCLOSE stage an image in the slot that is not active, ACTIVATE accepts one that verifies, and its reset
begins and ends a pause; BOOT runs the first slot that verifies; SETPKG, LEAVE, JOIN and ROUTE change the domain; a retry sends a flit and
those behind it again; a port that cannot run 4 lanes goes down; a unit that a peer sends is written where its handle allows it; the boot
mailboxes are firmware's. An erased byte of flash reads 0 (log 3), what an image holds is open (log 6), how ports retrain and what an
activation resets are logs 82 and 55, and that a ROUTE which names no port takes its package out of the table is log 53. -/
def Obligations.RegistersManagementAndLinks : Prop := ∀ (s : State) (w v : Word),
  let g := s.mgmt
  let b := s.turn.item
  let box := g.boxes.get b Mailbox.zero
  let ended : Mailbox → Nat → Mailbox := fun x status => { x with busy := false, status := BitVec.ofNat 16 status, msix := true }
  let refuses : Instr → Nat → Prop := fun i status => Gives i s { s with mgmt := { g with boxes := g.boxes.set b (ended box status) } }
  let ends : Instr → Nat → (State → Prop) → Prop := fun i status f => ∃ t, Gives i s t ∧ f t ∧
    (∃ m, t.mgmt.boxes.get b Mailbox.zero = ended { box with mw := m } status) ∧ ∀ j, j ≠ b → t.mgmt.boxes.get j Mailbox.zero = g.boxes.get j Mailbox.zero
  let slot := decide (w = 1)
  let base : Bool → Nat := fun b => 4 * 2 ^ 64 + (if b then 2 ^ 40 else 0)
  (∀ (p : BitVec 6) (i : BitVec 3), i ≠ 7 → ∃ t, Gives (.registerWrite (.cw p i) v) s t ∧ t = { s with parts := t.parts } ∧
    (t.part p.toNat).cw.get i.toNat 0 = v) ∧
  (∀ p, Gives (.registerWrite (.fcnt p) v) s s ∧ Gives (.registerWrite (.apcount p) v) s s) ∧ Gives (.registerWrite .mstate v) s s ∧
  -- the boot mailboxes, the root's block and a partition's default key are firmware's alone
  (s.turn.fw = false → ∀ r, (∃ c, r = OutReg.mbimg c ∨ r = .mbarg c ∨ r = .mbctl c) ∨ (∃ i, r = .rootRcb i) ∨ (∃ p, r = .defaultKey p) →
    Gives (.registerWrite r v) s s) ∧
  (s.turn.fw = true → ∀ c : BitVec 8,
    (∃ t, Gives (.registerWrite (.mbimg c) v) s t ∧ t = { s with cores := t.cores } ∧ t.core c.toNat = { s.core c.toNat with mbImg := v }) ∧
    (v.getLsbD 0 = true → Gives (.registerWrite (.mbctl c) v) s { s with agenda := .run Turn.zero (.go c) :: s.agenda })) ∧
  (s.turn.fw = true → ∀ p : BitVec 6, s.keyUsable p.toNat (v.toNat % 2 ^ 11) = true → ∃ t, Gives (.registerWrite (.defaultKey p) v) s t ∧
    t = { s with parts := t.parts } ∧ t.part p.toNat = { s.part p.toNat with key := BitVec.ofNat 11 v.toNat }) ∧
  (∀ p : BitVec 6, ∃ t, Gives (.registerWrite (.aperture p) v) s t ∧ t = { s with parts := t.parts } ∧
    t.part p.toNat = { s.part p.toNat with
      axi := BitVec.ofNat 16 (v.toNat / 2 ^ 48), abase := BitVec.ofNat 18 (v.toNat / 2 ^ 30 % 2 ^ 18) }) ∧
  (1 < w.toNat → refuses (.imgopen w) 5) ∧ (w.toNat ≤ 1 → g.active = some slot → refuses (.imgopen w) 1) ∧
  (w.toNat ≤ 1 → g.active ≠ some slot → ends (.imgopen w) 0 (fun t => t.mgmt.opened = some slot ∧ t.mgmt.staged = false ∧
    t = { s with mem := t.mem, mgmt := t.mgmt } ∧ (Memory.wf s.mem = true →
      (∀ a, base slot ≤ a → a < base slot + 2 ^ 40 → Memory.read t.mem a = 0) ∧
      ∀ a, a < base slot ∨ base slot + 2 ^ 40 ≤ a → Memory.read t.mem a = Memory.read s.mem a))) ∧
  (g.opened = none → refuses (.imgwrite w v) 5 ∧ refuses .imgclose 5 ∧ refuses .activate 2) ∧
  (∀ o, g.opened = some o →
    let bytes := s.flash o
    let digest := Config.sha384 (Config.imageBody bytes)
    let code := if digest ≠ Config.imageDigest bytes then 1 else if Config.rsaVerifies digest bytes = false then 2
      else if Config.slhVerifies digest bytes = false then 3 else if (Config.imageSvn bytes).toNat < g.fsvn.toNat then 4 else 0
    (g.active = some o → refuses (.imgwrite w v) 1) ∧
    (g.active ≠ some o → w.toNat % 2048 ≠ 0 ∨ v.toNat = 0 ∨ 2048 < v.toNat ∨ 2 ^ 26 < w.toNat + v.toNat → refuses (.imgwrite w v) 5) ∧
    (g.active ≠ some o → w.toNat % 2048 = 0 → 0 < v.toNat → v.toNat ≤ 2048 → w.toNat + v.toNat ≤ 2 ^ 26 → Memory.wf s.mem = true →
      ends (.imgwrite w v) 0 (fun t => Holds s t (base o + w.toNat)
        ((List.range v.toNat).map (fun i => BitVec.ofNat 8 ((box.mdata.get (i / 8) 0).toNat / 2 ^ (8 * (i % 8))))))) ∧
    ends .imgclose 0 (fun t => t.mem = s.mem ∧ ((t.mgmt.boxes.get b Mailbox.zero).mw.get 0 0).toNat = code ∧
      (t.mgmt.staged = true ↔ g.staged = true ∨ code = 0)) ∧
    (s.verifies o = true ↔ code = 0) ∧
    (g.staged = false ∨ s.verifies o = false → refuses .activate 2) ∧
    (g.staged = true → s.verifies o = true →
      (g.mode ≠ 1 → s.layoutBusy bytes = true → refuses .activate 3) ∧
      (g.mode ≠ 1 → s.layoutBusy bytes = false → ends .activate 0 (fun t => t.mgmt.pending = some o ∧ t = { s with mgmt := t.mgmt })) ∧
      (g.mode = 1 → ∃ t, Gives .activate s t ∧ t.mgmt.newFw = true ∧ t.mgmt.fsvn = g.fsvn ∧ t.cores = State.reset.cores ∧
        t.parts = State.reset.parts ∧ t.mem = s.mem.filter (fun c => decide (4 * 2 ^ 64 ≤ c.1))))) ∧
  (∀ o, g.pending = some o → ∃ t, Gives .activationReset s t ∧ t = { s with mgmt := t.mgmt, draws := s.draws + 1 } ∧ t.mgmt.mode = 2 ∧
    t.mgmt.slot = o ∧ t.mgmt.image = s.flash o ∧ t.mgmt.rsvn = Config.imageSvn (s.flash o) ∧ t.mgmt.pending = none ∧
    t.mgmt.staged = false ∧ s.tick ≤ t.mgmt.pauseEnd ∧ t.mgmt.pauseEnd ≤ s.tick + 5000000) ∧
  (g.pending = none → g.mode = 2 → g.pauseEnd ≤ s.tick → g.held = [] → ∃ t, Gives .activationReset s t ∧
    t = { s with mgmt := { g with mode := 0, fsvn := t.mgmt.fsvn } } ∧ t.mgmt.fsvn.toNat = max g.fsvn.toNat g.rsvn.toNat) ∧
  (g.pending = none → g.mode ≠ 2 ∨ s.tick < g.pauseEnd → Gives .activationReset s s) ∧
  (s.bootSlot = none → Gives .boot s { s with mgmt := { g with mode := 1 } }) ∧
  (∀ o, s.bootSlot = some o → s.verifies o = true ∧ ∃ t, Gives .boot s t ∧
    t = { s with mgmt := t.mgmt, disc := t.disc, rcbs := t.rcbs, fabric := t.fabric } ∧
    t.mgmt.mode = 0 ∧ t.mgmt.slot = o ∧ t.mgmt.image = s.flash o ∧ t.mgmt.udsLocked = true ∧
    (∀ i, i < 27 → (t.siteDisc i).st = .ready ∧ t.mgmt.ucode.get i [] = Config.imageMicrocode (s.flash o) i) ∧
    ∀ p, p < 64 → (t.rcb (1 + p)).level = 1) ∧
  (g.mode = 1 ∨ 511 < w.toNat → refuses (.setpkg w) 5) ∧ (g.mode ≠ 1 → w.toNat ≤ 511 → g.indom = true → refuses (.setpkg w) 4) ∧
  (g.mode ≠ 1 → w.toNat ≤ 511 → g.indom = false → ends (.setpkg w) 0 (fun t => t = { s with mgmt := t.mgmt } ∧ t.mgmt.pkg.toNat = w.toNat)) ∧
  (g.mode = 1 → refuses .leave 5 ∧ refuses .join 5 ∧ refuses (.route w v) 5) ∧
  (g.mode ≠ 1 → (g.indom = true → ends .leave 0 (fun t => t = { s with mgmt := t.mgmt } ∧ t.mgmt.indom = false) ∧ refuses .join 4) ∧
    (g.indom = false → refuses .leave 4 ∧ ends .join 0 (fun t => t.mgmt.indom = true ∧ t.mem = s.mem ∧
      ∀ n, n < 16 → (s.port n).lanes ≠ 0 → t.port n = s.port n))) ∧
  (let place : Nat → Nat := fun i => v.toNat / 2 ^ (5 * i) % 2 ^ 5
   let set : State → Prop := fun t => t.routes.get w.toNat 0 = BitVec.ofNat 20 v.toNat ∧ ∀ j, j ≠ w.toNat → t.routes.get j 0 = s.routes.get j 0
   g.mode ≠ 1 → w.toNat ≤ 511 → ((∀ i, i < 4 → place i < 16 ∨ place i = 31) →
       ends (.route w v) 0 (fun t => set t ∧ (w.toNat ∈ t.left ↔ ∀ i, i < 4 → place i = 31))) ∧
     ((∃ i, i < 4 ∧ 16 ≤ place i ∧ place i ≠ 31) → refuses (.route w v) 5)) ∧
  (∀ port : BitVec 4, let f := s.foano.get port.toNat Foano.zero
    (∃ t n, Gives (.flitRetry port) s t ∧ t = { s with foano := t.foano, draws := s.draws + 1 } ∧ n ≤ f.wire ∧
      t.foano.get port.toNat Foano.zero = { f with wire := n }) ∧
    (f.lanes = 8 → ∃ t, Gives (.laneRetrain port) s t ∧ t = { s with foano := t.foano } ∧ t.foano.get port.toNat Foano.zero = { f with lanes := 4 }) ∧
    (f.lanes ≠ 8 → ∃ t, Gives (.laneRetrain port) s t ∧ t = { s with foano := t.foano, disc := t.disc } ∧
      t.foano.get port.toNat Foano.zero = { f with lanes := 0, replay := 0, wire := 0 } ∧
      (t.siteDisc (25 + port.toNat / 8)).units.getLsbD (port.toNat % 8) = false)) ∧
  (∀ link : BitVec 6, (49 ≤ link.toNat → ∀ ok, Gives (.ucieLinkRetrain link ok) s s) ∧
    (link.toNat < 49 → ∃ t, Gives (.ucieLinkRetrain link true) s t ∧ t = { s with linksDown := t.linksDown } ∧ link.toNat ∉ t.linksDown) ∧
    (link.toNat < 49 → ∃ t, Gives (.ucieLinkRetrain link false) s t ∧ link.toNat ∈ t.linksDown)) ∧
  (∀ u : CollUnit, let a := hAddr u.handle u.doff.toNat
    (s.collAccepts u = false → Gives (.collArrival u) s s) ∧
    (s.collAccepts u = true → s.bins = [] → Memory.wf s.mem = true → Writable s a u.data.length → u.acc = false → u.rsen = false →
      ∃ t, Gives (.collArrival u) s t ∧ Holds s t a u.data)) ∧
  Gives (.spdmRequest .measurements) s { s with mgmt := { g with
    measured := (Config.bootRom :: g.image :: g.ucode.map (fun p => p.2)).flatMap Config.sha384 } } ∧
  Gives (.spdmRequest .session) s { s with mgmt := { g with session := true } } ∧
  (∀ (part : BitVec 6) (k : BitVec 11) (key : Bits512), let x := s.keys.get k.toNat Key.zero
    (g.session = true → x.asked = true → x.part = part → x.nbuf = 0 → ∃ t, Gives (.spdmRequest (.keyMaterial part k key)) s t ∧
      t.mem = s.mem ∧ t.keys.get k.toNat Key.zero = { x with valid := true, material := key, asked := false }) ∧
    (g.session = false ∨ x.asked = false ∨ x.part ≠ part ∨ x.nbuf ≠ 0 → Gives (.spdmRequest (.keyMaterial part k key)) s s))

namespace Claims

/-- What the moves of a bundle find when it reaches issue: their own faults and the checks of the operations they trigger, with the ports
as the bundle leaves them. -/
def finds (s : State) (b : Bundle) : List Check :=
  let n := s.turn.core
  let x := (s.core n).ctx
  let rs := s.readMoves n b
  let w := x.writes (rs.filterMap (Read.write x s.turn.bidx))
  (s.modCtx n (fun _ => w)).findings n x w s.turn.bidx rs

/-- Nothing stops or freezes the bundle: no move reads a PENDING slot, faults, freezes or traps, no ARITH waits, and the counters of R366
can take what it adds. -/
def Clear (s : State) (b : Bundle) : Prop :=
  let n := s.turn.core
  let x := (s.core n).ctx
  let rs := s.readMoves n b
  let w := x.writes (rs.filterMap (Read.write x s.turn.bidx))
  firstPending rs = none ∧ faultsOf (finds s b) = [] ∧ x.arith = none ∧ anyFreeze (finds s b) = false ∧ firstTrap (finds s b) = none ∧
    x.countersHold ((rs.filterMap Read.trigger).map ((s.modCtx n (fun _ => w)).trigCounts n w s.turn.bidx)) = true

/-- The bundle triggers an operation that holds it in issue: ALLOC, WAITV, WAITC or WAITT (R259, R368). -/
def Holding (s : State) (b : Bundle) : Prop :=
  ((s.readMoves s.turn.core b).filterMap Read.trigger).any holdsIssue = true

/-- A move of the bundle whose guard holds before the bundle, with what its source then holds. -/
def Moves (s : State) (b : Bundle) (d : Dst) (v : MVal) : Prop :=
  ∃ m, some m ∈ bundleSlots b ∧ ((s.core s.turn.core).ctx.pred m.guard.pred.toNat != m.guard.inv) = true ∧ m.dst = d ∧
    s.fetch s.turn.core b m.dst m.src = .got v

/-- A guarded-in move of the bundle names a destination. -/
def Names (s : State) (b : Bundle) (d : Dst) : Prop :=
  ∃ m, some m ∈ bundleSlots b ∧ ((s.core s.turn.core).ctx.pred m.guard.pred.toNat != m.guard.inv) = true ∧ m.dst = d

/-- No two moves of the bundle write one register or port (R120): a trigger writes port A. -/
def OneWriter (b : Bundle) : Prop :=
  ∀ (i j : Nat) (m k : Move), (bundleSlots b)[i]? = some (some m) → (bundleSlots b)[j]? = some (some k) →
    (encodeDst m.dst = encodeDst k.dst ∨ (∃ f o, m.dst = .trig f o ∧ (k.dst = .port f 0 ∨ ∃ q, k.dst = .trig f q))) → i = j

end Claims

open Claims

/-- R112, R109, R113, R115, R167, R175: a bundle that nothing stops. Every move whose guard holds reads its source before the bundle, and
the writes take effect together: a scalar, predicate, mask, capability or vector register or an operand port then holds what the move
read, and a register no such move names is as before. The pc moves on by one, or a loop-end bundle runs the loop-end step. The
operations triggered for this clock come next, with the ports as the bundle left them; memory and every other core stay. -/
def Obligations.BundleTakesEffect : Prop := ∀ (s : State) (b : Bundle), Clear s b → ¬ Holding s b → OneWriter b →
  let n := s.turn.core
  let x := (s.core n).ctx
  ∃ t y, Gives (.move b) s t ∧ y = (t.core n).ctx ∧
    t = { s with cores := t.cores, agenda := t.agenda } ∧ (∀ m, m ≠ n → t.core m = s.core m) ∧
    (∀ r v, Moves s b (.srf r) v → y.srf.get r.toNat 0 = v.scalar) ∧
    (∀ r : BitVec 6, ¬ Names s b (.srf r) → y.srf.get r.toNat 0 = x.srf.get r.toNat 0) ∧
    (∀ r v, Moves s b (.mrf r) v → y.mrf.get r.toNat 0 = v.vector.setWidth 1024) ∧
    (∀ r : BitVec 3, ¬ Names s b (.mrf r) → y.mrf.get r.toNat 0 = x.mrf.get r.toNat 0) ∧
    (∀ r v, Moves s b (.crf r) v → y.crf.get r.toNat 0 = v.handle) ∧
    (∀ r : BitVec 4, ¬ Names s b (.crf r) → y.crf.get r.toNat 0 = x.crf.get r.toNat 0) ∧
    (∀ r v, Moves s b (.vrf r) v → y.vrf.get (x.physReg r.toNat) 0 = v.vector ∧ y.dirty.getLsbD (x.physReg r.toNat) = true) ∧
    (∀ r : BitVec 7, ¬ Names s b (.vrf r) → y.vrf.get (x.physReg r.toNat) 0 = x.vrf.get (x.physReg r.toNat) 0) ∧
    (∀ fu (p : BitVec 3) v, Moves s b (.port fu p) v ∨ (p = 0 ∧ ∃ o, Moves s b (.trig fu o) v) →
      (portKind fu p.toNat = some .s → y.sport.get (portKey fu p.toNat) 0 = v.scalar) ∧
      (portKind fu p.toNat = some .v → y.vport.get (portKey fu p.toNat) 0 = v.vector) ∧
      (portKind fu p.toNat = some .k → y.kport.get (portKey fu p.toNat) 0 = v.handle)) ∧
    (∀ fu (p : BitVec 3), ¬ Names s b (.port fu p) → (p = 0 → ∀ o, ¬ Names s b (.trig fu o)) →
      y.sport.get (portKey fu p.toNat) 0 = x.sport.get (portKey fu p.toNat) 0 ∧
      y.vport.get (portKey fu p.toNat) 0 = x.vport.get (portKey fu p.toNat) 0 ∧
      y.kport.get (portKey fu p.toNat) 0 = x.kport.get (portKey fu p.toNat) 0) ∧
    (∃ q : BitVec 16, (∀ (r : BitVec 4) v, Moves s b (.prf r) v → q.getLsbD r.toNat = v.scalar.getLsbD 0) ∧
      (∀ r : BitVec 4, ¬ Names s b (.prf r) → q.getLsbD r.toNat = x.prf.getLsbD r.toNat) ∧
      (b.loopEnd = false → y.prf = q ∧ y.pc = s.turn.bidx + 1 ∧ y.lc = x.lc ∧ y.esc = x.esc ∧ y.rrb = x.rrb) ∧
      (b.loopEnd = true →
        (∀ k, k < 8 → y.prf.getLsbD k = q.getLsbD k) ∧ (∀ k, 9 ≤ k → k < 16 → y.prf.getLsbD k = q.getLsbD (k - 1)) ∧
        y.prf.getLsbD 8 = decide (0 < x.lc.toNat) ∧
        y.lc = (if 0 < x.lc.toNat then x.lc - 1 else x.lc) ∧
        y.esc = (if x.lc.toNat = 0 ∧ 0 < x.esc.toNat then x.esc - 1 else x.esc) ∧
        (y.rrb.toNat : Int) = (if x.rs = 0 then 0 else ((x.rrb.toNat : Int) - 1) % (x.rs : Int)) ∧
        y.pc = (if 0 < x.lc.toNat ∨ 0 < x.esc.toNat then x.lhead.setWidth 64 else s.turn.bidx + 1))) ∧
    (∀ u i, Task.run u i ∈ t.agenda → Task.run u i ∈ s.agenda ∨ (u.core = n ∧ i = .longOpComplete) ∨
      (u.core = n ∧ u.bidx = s.turn.bidx ∧ u.checked = true ∧ ∃ fu o v, Moves s b (.trig fu o) v ∧
        ∃ g : BTrig, g.fu = fu ∧ g.opc = o ∧ trigInstr g u.ops = some i ∧
          (portKind fu 0 = some .s → u.ops.a = v.scalar) ∧ (portKind fu 0 = some .v → u.ops.va = v.vector))) ∧
    (∀ fu o v slot, Moves s b (.trig fu o) v →
      (let g : BTrig := { slot := slot, fu := fu, opc := o }
       (∀ k, actTime g = .now k → opOf fu o.toNat ≠ none →
          ∃ u i, Task.run u i ∈ t.agenda ∧ trigInstr g u.ops = some i ∧ u.core = n ∧ u.checked = true ∧
            (portKind fu 0 = some .s → u.ops.a = v.scalar) ∧ (portKind fu 0 = some .v → u.ops.va = v.vector)) ∧
       (∀ k, actTime g = .later k → ∃ d ∈ (t.core n).deferred, d.fu = fu ∧ d.opc = o ∧ d.due = (s.core n).age + k) ∧
       (actTime g = .late → ∃ d ∈ (t.core n).deferred, d.fu = fu ∧ d.opc = o ∧ d.due = (s.core n).age ∧ d.late = true))) ∧
    (t.core n).mode = (s.core n).mode ∧
    y = { x with
      srf := y.srf, prf := y.prf, crf := y.crf, vrf := y.vrf, mrf := y.mrf, dirty := y.dirty, sport := y.sport, vport := y.vport,
      kport := y.kport, pc := y.pc, lc := y.lc, esc := y.esc, rrb := y.rrb, vxuLong := y.vxuLong, vlsLong := y.vlsLong }

/-- R49, R58, R60, R71, R175, R226, R259, R366, R368: a bundle that does not take effect as it reaches issue; its registers, ports and
memory stay. One whose guarded-in move reads a PENDING slot freezes its core in this clock. Else the first failing move in slot order
raises its fault, with MORE where another failed; an unconfigured vector register gives UNCONF_VREG with the name in DETAIL. Else a
waiting ARITH is taken, a full table or counter freezes, a MISALIGN trap is taken, and ALLOC and the waits hold the bundle. How the moves
of one bundle rank is log 18, and the clock of a freeze log 22. -/
def Claims.NoIssue : Prop := ∀ (s : State) (b : Bundle),
  let n := s.turn.core
  let c := s.core n
  let x := c.ctx
  let rs := s.readMoves n b
  let start := match c.freeze with
    | some f => f.1
    | none => s.tick
  let stopped : Stop → State → Prop := fun w t =>
    (t.core n).mode = .drain w ∧ t = { s with cores := t.cores } ∧ (∀ m, m ≠ n → t.core m = s.core m) ∧
      (t.core n).ctx = { x with arith := (t.core n).ctx.arith, noted := (t.core n).ctx.noted, vxuLong := (t.core n).ctx.vxuLong,
                                vlsLong := (t.core n).ctx.vlsLong } ∧
      (t.core n).ctx.noted = x.noted.filter (fun e => !w.reports e)
  (∀ slot k, firstPending rs = some (slot, k) → x.arith = none → s.tick < start + 200000 →
    Gives (.move b) s (withCore s { c with freeze := some (start, k), frozen := true })) ∧
  (∀ f more, firstPending rs = none → faultsOf (finds s b) = f :: more →
    ∃ t, Gives (.move b) s t ∧ stopped (.fault { f with more := decide (more ≠ []) }) t) ∧
  (∀ (m : Move) (r : BitVec 7) (slot : Nat), (bundleSlots b)[slot]? = some (some m) → m.src = .vrf r ∨ m.dst = .vrf r →
    (x.pred m.guard.pred.toNat != m.guard.inv) = true → x.vregOk r.toNat = false → (∀ k, s.fetch n b m.dst m.src ≠ .wait k) →
    (m.src = .vrf r ∨ ∃ v, s.fetch n b m.dst m.src = .got v) →
    strandFault 0x13 slot s.turn.bidx (r.setWidth 64) 0 ∈ faultsOf (finds s b)) ∧
  (∀ a, firstPending rs = none ∧ faultsOf (finds s b) = [] ∨ firstPending rs ≠ none → x.arith = some a → x.inTrap = false → x.tvec ≠ 0 →
    ∃ t k, Gives (.move b) s t ∧ stopped (.trap k) t ∧ k.cause = 0x02 ∧ k.fu = a.fu ∧ k.info0 = a.bidx ∧
      k.info1 = a.raised.setWidth 64 ∧ (t.core n).ctx.arith = none) ∧
  (firstPending rs = none → faultsOf (finds s b) = [] → x.arith = none → anyFreeze (finds s b) = true →
    Gives (.move b) s (withCore s { c with freeze := none, frozen := true })) ∧
  (∀ k, firstPending rs = none → faultsOf (finds s b) = [] → x.arith = none → anyFreeze (finds s b) = false →
    x.countersHold ((rs.filterMap Read.trigger).map
      (fun g => (s.modCtx n (fun _ => x.writes (rs.filterMap (Read.write x s.turn.bidx)))).trigCounts n
        (x.writes (rs.filterMap (Read.write x s.turn.bidx))) s.turn.bidx g)) = true →
    firstTrap (finds s b) = some k → ∃ t, Gives (.move b) s t ∧ stopped (.trap k) t) ∧
  (Clear s b → Holding s b → ∃ t h, Gives (.move b) s t ∧ (t.core n).mode = .hold ∧ (t.core n).hold = some h ∧ h.bundle = b ∧
    h.bidx = s.turn.bidx ∧ t = { s with cores := t.cores, agenda := t.agenda } ∧ (∀ m, m ≠ n → t.core m = s.core m) ∧
    (t.core n).ctx = { x with vxuLong := (t.core n).ctx.vxuLong, vlsLong := (t.core n).ctx.vlsLong } ∧
    (∀ m v, some m ∈ bundleSlots b → (x.pred m.guard.pred.toNat != m.guard.inv) = true → s.fetch n b m.dst m.src = .got v →
      ∃ w ∈ h.writes, w.dst = m.dst ∧ w.val = v))

/-- R49, R58, R60, R71, R112, R226, R259, R366, R368: a bundle or an operation that is stopped, frozen or held has none of its effect (logs
18 and 22). -/
def Obligations.StoppedOrHeldHasNoEffect : Prop := Claims.NoIssue ∧ Claims.FailedCheck

/-- R115, R118: masks, predicates and capabilities as operands of moves. A mask read as a source is a vector whose low 1,024 bits hold it,
bit i of the mask in bit i mod 8 of byte i / 8, and whose other bytes are 0; written, it takes the low 128 bytes. A predicate takes bit 0.
In a bundle that decodes, a capability destination has a CRF register or SYS.H as its source; another source is an illegal move. A
capability moved into a scalar register delivers its value, and no other source delivers a capability. -/
def Obligations.MaskAndCapabilityMoves : Prop :=
  (∀ (s : State) (n : Nat) (b : Bundle) (d : Dst) (r : BitVec 3), ∃ v : VReg, s.fetch n b d (.mrf r) = .got (.v v) ∧
    (∀ i, i < 1024 → (v.toNat / 256 ^ (i / 8) % 256).testBit (i % 8) = ((s.core n).ctx.maskReg r.toNat).getLsbD i) ∧
    ∀ j, 128 ≤ j → v.toNat / 256 ^ j % 256 = 0) ∧
  (∀ (x : Ctx) (r : BitVec 3) (p : Nat) (v : VReg), ((x.write ⟨.mrf r, p, .v v⟩).maskReg r.toNat).toNat = v.toNat % 256 ^ 128) ∧
  (∀ (x : Ctx) (r : BitVec 4) (p : Nat) (w : Word), r ≠ 0 → (x.write ⟨.prf r, p, .s w⟩).pred r.toNat = w.getLsbD 0) ∧
  (∀ (vec : Bool) (w : Bits256) (b : Bundle) (k : Nat) (m : Move), decodeBundle vec w = .ok b → (bundleSlots b)[k]? = some (some m) →
    dstKind vec m.dst = some .k → (∃ r, m.src = .crf r) ∨ ∃ d, m.src = .win .sys 2 d) ∧
  (∀ (vec : Bool) (w : Bits256) (k bits : Nat) (m : Move), (slotBits w.toNat)[k]? = some bits →
    (w.getLsbD 252 = true → k ≠ 3 ∧ k ≠ 4) → decodeMove (decide (k < 5)) bits = some (some m) → dstKind vec m.dst = some .k →
    (∀ r, m.src ≠ .crf r) → (∀ d, m.src ≠ .win .sys 2 d) →
    (∃ d, decodeBundle vec w = .error (.bundle d)) ∨ ∃ j d more, j ≤ k ∧ decodeBundle vec w = .error (.transport j d more)) ∧
  (∀ (x : Ctx) (r : BitVec 6) (p : Nat) (h : Handle), (x.write ⟨.srf r, p, .k h⟩).srf.get r.toNat 0 = h) ∧
  (∀ (s : State) (n : Nat) (b : Bundle) (d : Dst) (src : Src) (h : Handle), s.fetch n b d src = .got (.k h) →
    (∃ r, src = .crf r) ∨ ∃ k, src = .win .sys 2 k)

/-- R111: a slot whose guard is 0b10000 is empty and its other 25 bits are zero; otherwise the slot is illegal, and its bundle raises
ILLEGAL_TRANSPORT there or at an earlier slot unless it is already an ILLEGAL_BUNDLE. The legality of every other move does not depend on
its guard. -/
def Obligations.EmptySlotsAndGuards : Prop :=
  (∀ (scalar : Bool) (low : Nat), low < 2 ^ 25 → decodeMove scalar (0b10000 * 2 ^ 25 + low) = if low = 0 then some none else none) ∧
  (∀ (vec : Bool) (w : Bits256) (k low : Nat), low < 2 ^ 25 → low ≠ 0 → (slotBits w.toNat)[k]? = some (0b10000 * 2 ^ 25 + low) →
    (w.getLsbD 252 = true → k ≠ 3 ∧ k ≠ 4) →
    (∃ d, decodeBundle vec w = .error (.bundle d)) ∨ ∃ j d more, j ≤ k ∧ decodeBundle vec w = .error (.transport j d more)) ∧
  (∀ (scalar : Bool) (g h low : Nat) (d : Dst) (src : Src), g < 32 → h < 32 → g ≠ 0b10000 → h ≠ 0b10000 → low < 2 ^ 25 →
    ((∃ a, decodeMove scalar (g * 2 ^ 25 + low) = some (some ⟨a, d, src⟩)) ↔
      ∃ a, decodeMove scalar (h * 2 ^ 25 + low) = some (some ⟨a, d, src⟩))) ∧
  (∀ (vec limm : Bool) (t : Tally) (slot : Nat) (g h : Guard) (d : Dst) (src : Src),
    t.allow vec limm slot ⟨g, d, src⟩ = t.allow vec limm slot ⟨h, d, src⟩)

/-- R10: the package core number is site index × 16 + core index; DMX and VEC chiplets carry 16 cores, SPX and SRT chiplets 8, and the
package has 224 control cores in populations F and G and 240 in population D. -/
def Obligations.CoreNumbers : Prop := ∀ s : State,
  (∀ site i, i < 16 → siteOf (site * 16 + i) = site) ∧
  (∀ site i, site < 16 → i < 16 → (s.isCore (site * 16 + i) = true ↔
    (s.cls site = .dmx ∨ s.cls site = .vec) ∨ (s.cls site = .spx ∨ s.cls site = .srt) ∧ i < 8)) ∧
  (∀ n, 256 ≤ n → s.isCore n = false) ∧
  ((List.range 256).filter (fun n => s.isCore n)).length = if s.population = .d then 240 else 224

/-- R344: the STENCIL mask has one bit per offset (dx, dy) of −2…2 but (0, 0): with k = (dy + 2) × 5 + (dx + 2), bit k below 12 and bit
k − 1 above. -/
def Obligations.StencilMaskBits : Prop := ∀ (st : BitVec 24) (dx dy : Int),
  (dx, dy) ∈ stencilOffsets st ↔ (-2 ≤ dx ∧ dx ≤ 2 ∧ -2 ≤ dy ∧ dy ≤ 2 ∧ (dx, dy) ≠ (0, 0) ∧
    st.getLsbD (if (dy + 2) * 5 + (dx + 2) < 12 then ((dy + 2) * 5 + (dx + 2)).toNat else ((dy + 2) * 5 + (dx + 2)).toNat - 1) = true)

/-- R112, R140-R142, R169: an operation of a unit, whatever its operands, writes no register of any core: scalar, capability, vector and
mask registers and p0-p7 change by moves and with the strand alone. -/
def Obligations.OperationsWriteNoRegister : Prop := ∀ (fu : FU) (opc : Nat) (i : Instr) (s t : State),
  opOf fu opc = some i ∨ i = .xmovLoad → exec i s = .next t → ∀ n,
    let x := (s.core n).ctx
    let y := (t.core n).ctx
    y.srf = x.srf ∧ y.crf = x.crf ∧ y.vrf = x.vrf ∧ y.mrf = x.mrf ∧ ∀ k, k < 8 → y.prf.getLsbD k = x.prf.getLsbD k

namespace Claims

/-- The turn of an engine's entry. -/
def entryTurn (e : Nat) (q : QEnt) (u : Turn) : Prop := u = { Turn.zero with core := q.core, crew := q.crew, site := engSite e, engine := e, part := q.part }

end Claims

open Claims

/-- R106, R112, R121, R124-R126, R289: a step runs what it finds. A bundle at the pc of a core that runs, decoded, is MOVE of that bundle on
that core; an illegal one stops issue with ILLEGAL_BUNDLE or ILLEGAL_TRANSPORT; a walker's word at its program counter, a launch packet
that may start and the word of an engine's entry run as the instructions that they decode to; a task of the agenda runs its instruction;
and with an empty agenda the phases of the next clock are laid out. A discard of PIDX due in the clock acts before its bundle. After a
write that a wait may compare the next step evaluates the waits. The agenda is the model's own order of one clock (log 1). -/
def Obligations.StepRunsTheDecodedInstruction : Prop := ∀ (s : State) (ts : List Task), s.hostLinkDown = false →
  (s.written ≠ [] → step s = .next s.wake) ∧ (s.written = [] →
  let r : State := { s with agenda := ts }
  (∀ u i, s.agenda = .run u i :: ts → step s = exec i { r with turn := u }) ∧
  (∀ n o, s.agenda = .issue n :: ts → (s.core n).mode = .run → (s.core n).stopReq = none → (s.core n).overlay = some o →
    (s.core n).badRestore = false → (s.core n).parityBad = false →
    (let c := s.core n
     let pc := c.ctx.pc.toNat
     let word := decodeBundle (s.coreCls n == .vec) (o.code.get pc 0)
     pc ∉ o.bad → pc < o.size →
     ((∀ d ∈ c.deferred, d.due ≤ c.age → d.writesPidx = false) → r.earlyPidx n = r) ∧
     (∀ b, word = .ok b → step s = exec (.move b) { r.earlyPidx n with
       turn := { Turn.zero with core := n, crew := c.ctx.crew, site := n / 16, part := c.ctx.part, bidx := c.ctx.pc } }) ∧
     (∀ d, word = .error (.bundle d) → ∃ t f, step s = .next t ∧ (t.core n).mode = .drain (.fault f) ∧ f.code = 0x10 ∧
       f.detail = BitVec.ofNat 64 d ∧ f.bidx = pc % 2 ^ 13 ∧ t.mem = s.mem) ∧
     (∀ k d more, word = .error (.transport k d more) → ∃ t f, step s = .next t ∧ (t.core n).mode = .drain (.fault f) ∧
       f.code = 0x11 ∧ f.slot = k ∧ f.more = more ∧ f.detail = BitVec.ofNat 64 d ∧ f.bidx = pc % 2 ^ 13 ∧ t.mem = s.mem))) ∧
  (∀ e x i, s.agenda = .walker e :: ts → (s.walker e).fetch = .ok x → decodeWalker x = .ok i →
    ∃ u, entryTurn e (s.walkerEnt e) u ∧ step s = exec i { r with turn := u }) ∧
  (∀ p q k i, s.agenda = .packet p q :: ts → ((s.part p).queue q).st = .running → nextPacket [] ((s.part p).queue q).pkts = some k →
    decodePacket k.bits = some i → step s = exec i { r with turn := { Turn.zero with part := p, queue := q, item := k.seq } }) ∧
  (∀ e c i, s.agenda = .engine e :: ts → s.siteRuns (engSite e) = true → (s.eng e).cur = some c →
    s.orphan c.main.ent = false → (c.stoppable = false ∧ s.xfenStuck e c = false) ∨ s.entryServed e c.main.ent = true → c.done = false → c.window = false → sigwaitDue s c.act = false → c.sub = none →
    c.main.ent.pkt = none → c.main.prog = 0 → opcOf c.main.ent.word / 32 = engClass e → decodeTile c.main.ent.word = some i →
    ∃ u, entryTurn e c.main.ent u ∧ step s = exec i { r with turn := u }) ∧
  (s.agenda = [] → step s = .next { s with agenda := clockPhases }))

/-- R106, R110, R114, R120, R122, R125, R126, R132, R289: words written out from the spec's encodings. The two bundles that the spec works
to the bit, a walker instruction of each field shape, a tile command word of each class, and a launch packet of each kind. -/
def Obligations.SpecWordsDecode : Prop :=
  let empty : Option Move := none
  let always : Guard := ⟨false, 0⟩
  let word : List Nat → Nat := fun l => l.foldr (fun x acc => x + 2 ^ 32 * acc) 0
  let hd : TcHdr := ⟨true, false, false, false, 5⟩
  decodeTableWord 256 (word [0x20000000, 0x08000000, 0x02500EC4, 0x00800000, 0x00200000, 0x00580000, 0x000C0303, 0x000000C4]) =
    some (.move ⟨false, none, some ⟨always, .trig .ala 0, .srf 3⟩, some ⟨always, .port .ala 1, .imm 5⟩, empty, empty, empty,
      some ⟨⟨true, 2⟩, .vrf 7, .win .vaa 0 0⟩, empty, empty⟩) ∧
  decodeTableWord 256 (word [0x20000000, 0x08000000, 0x0A000000, 0x04000000, 0x00000000, 0x00180000, 0xE000000C, 0x10000002]) =
    some (.move ⟨false, some 0x100000002, some ⟨always, .srf 5, .limm⟩, some ⟨always, .srf 6, .srf 1⟩, empty, empty, empty, empty, empty,
      empty⟩) ∧
  decodeTableWord 32 (0x08 * 2 ^ 26 + 3 * 2 ^ 22 + 4 * 2 ^ 18 + 5 * 2 ^ 14) = some (.walkerAddw 3 4 5) ∧
  decodeTableWord 32 (0x10 * 2 ^ 26 + 6 * 2 ^ 18 + 0x3FF) = some (.bnz 6 0x3FF) ∧
  decodeTableWord 32 (0x01 * 2 ^ 26 + 1 * 2 ^ 22 + 2 * 2 ^ 18 + 7) = some (.walkerLdh 1 2 7) ∧
  decodeTableWord 32 (0x0C * 2 ^ 26 + 1 * 2 ^ 22 + 2 * 2 ^ 18) = some (.walkerPopc 1 2) ∧
  decodeTableWord 32 (0x18 * 2 ^ 26 + 2 * 2 ^ 18 + 3 * 2 ^ 14) = some (.walkerEmit 2 3) ∧
  decodeTableWord 32 (0x12 * 2 ^ 26 + 5) = some (.walkerJmp 5) ∧
  decodeTableWord 32 (0x3F * 2 ^ 26) = some .done ∧ decodeTableWord 32 (0x3F * 2 ^ 26 + 1) = none ∧
  decodeTile (BitVec.ofNat 256 (0x07 * 2 ^ 248 + 2 ^ 247 + 5 * 2 ^ 238 + 0x0003 * 2 ^ 216)) = some (.xfen hd ⟨3⟩) ∧
  decodeTile (BitVec.ofNat 256 (0x20 * 2 ^ 248 + 2 ^ 247 + 5 * 2 ^ 238 + 64 * 2 ^ 225)) = some (.mlease hd ⟨64⟩) ∧
  decodeTile (BitVec.ofNat 256 (0x40 * 2 ^ 248 + 2 ^ 247 + 5 * 2 ^ 238 + 4 * 2 ^ 192 + 1024 * 2 ^ 179 + 16 * 2 ^ 167)) = some (.wload hd ⟨4, 1024, 16⟩) ∧
  decodeTile (BitVec.ofNat 256 (0x61 * 2 ^ 248 + 2 ^ 247 + 5 * 2 ^ 238 + 2 * 2 ^ 228 + 2 ^ 227 + 6 * 2 ^ 201 + 1 * 2 ^ 161 + 3 * 2 ^ 81 + 256 * 2 ^ 32 + 2 ^ 31 +
    5 * 2 ^ 7)) = some (.topk hd ⟨2, true, 0, 6, 1, 0, 3, 0⟩ 256 true 5) ∧
  decodeTile (BitVec.ofNat 256 (0x80 * 2 ^ 248 + 2 ^ 247 + 5 * 2 ^ 238 + 1 * 2 ^ 227 + 2 ^ 226)) = some (.uopen hd ⟨1, true⟩) ∧
  decodeTile (BitVec.ofNat 256 (0xA2 * 2 ^ 248 + 2 ^ 247 + 5 * 2 ^ 238 + 8 * 2 ^ 184 + 5 * 2 ^ 120 + 4 * 2 ^ 117 + 6 * 2 ^ 99)) =
    some (.sigwait hd ⟨8, 5, 4, 6⟩) ∧
  decodeTile (BitVec.ofNat 256 (0x20 * 2 ^ 248 + 65 * 2 ^ 225)) = none ∧ decodeTile (BitVec.ofNat 256 (0xC0 * 2 ^ 248)) = none ∧
  decodePacket (BitVec.ofNat 512 (0x01 * 2 ^ 56 + 2 ^ 55 + 200 * 2 ^ 40 + 2 ^ 64 * (5 * 2 ^ 48 + 64) + 2 ^ 128 * (1 + 2 * 2 ^ 16 + 3 * 2 ^ 32 + 4 * 2 ^ 48) +
    2 ^ 192 * (5 + 6 * 2 ^ 16 + 7 * 2 ^ 32 + 8 * 2 ^ 48))) = some (.invoke ⟨true, 200, 5, 64, 1, 2, 3, 4, 5, 6, 7, 8⟩) ∧
  decodePacket (BitVec.ofNat 512 (0x02 * 2 ^ 56 + 2 ^ 4 + 3 + 2 ^ 64 * (9 * 2 ^ 48 + 8) + 2 ^ 128 * (10 * 2 ^ 48 + 16) + 2 ^ 320 * 7 + 2 ^ 384 * 50)) =
    some (.barrier ⟨false, true, 3, ⟨9, 8⟩, ⟨10, 16⟩, ⟨0, 0⟩, ⟨0, 0⟩, 7, 50⟩) ∧
  decodePacket (BitVec.ofNat 512 (0x03 * 2 ^ 56 + 1 + 2 ^ 64 * (9 * 2 ^ 48 + 8) + 2 ^ 128 * 77)) = some (.signal ⟨false, true, 9, 8, 77⟩) ∧
  decodePacket (BitVec.ofNat 512 (0x04 * 2 ^ 56 + 2 ^ 64 * (9 * 2 ^ 48 + 8) + 2 ^ 128 * (10 * 2 ^ 48 + 16) + 2 ^ 192 * 77)) =
    some (.copyPacket ⟨false, 9, 8, 10, 16, 77⟩) ∧
  decodePacket (BitVec.ofNat 512 (0x05 * 2 ^ 56)) = some (.reset ⟨false⟩) ∧
  decodePacket (BitVec.ofNat 512 (0x05 * 2 ^ 56 + 2 ^ 55)) = some (.reset ⟨true⟩) ∧ decodePacket (BitVec.ofNat 512 (0x06 * 2 ^ 56)) = none

/-- R106-R126, R289-R292: for every well-formed instruction that has a word of its own, with every operand at every value that the encoding
admits, the decoder reads the instruction back from its word: bundles, tile commands, walker instructions and launch packets. -/
def Obligations.DecodeReadsEncodeBack : Prop := ∀ (i : Instr) (n w : Nat), i.wf = true → encode i = some (n, w) → w < 2 ^ n ∧
  ((∃ b, i = .move b ∧ n = 256 ∧ decodeBundle true (BitVec.ofNat 256 w) = .ok b) ∨
    (n = 256 ∧ (∀ b, i ≠ .move b) ∧ decodeTile (BitVec.ofNat 256 w) = some i) ∨
    (n = 32 ∧ decodeWalker (BitVec.ofNat 32 w) = .ok i) ∨ (n = 512 ∧ decodePacket (BitVec.ofNat 512 w) = some i))

/-- R46, R52, R424: every instruction has a meaning in every state: exec answers a next state. A step answers one too, unless the package has
been shut down, and then it ends the run (log 58); no step refuses. -/
def Obligations.EveryInstructionAnswersANextState : Prop :=
  (∀ (i : Instr) (s : State), ∃ t, exec i s = .next t) ∧ (∀ s : State, s.hostLinkDown = false → ∃ t, step s = .next t) ∧
    (∀ s : State, s.hostLinkDown = true → step s = .fault .packageOff)

/-- R4, R254: whatever a step does, in any state whose memory is in its canonical form, the memory is in that form after it. The form is the
model's own (log 3). -/
def Obligations.EveryStepKeepsMemoryCanonical : Prop := ∀ s t : State, Safety.MemSound s → step s = .next t → Safety.MemSound t

/-- R42, R140, R149, R419: after reset memory lists nothing, every core is idle with its system registers 0 and p0 true, and the first step
runs BOOT. The values of registers that the spec gives only for the start of a strand are the model's choice (log 2). -/
def Obligations.ResetIsCanonical : Prop := Safety.MemSound State.reset ∧ State.reset.mem = [] ∧ step State.reset = exec .boot { State.reset with agenda := [] } ∧
  ∀ n, (State.reset.core n).mode = .idle ∧ (State.reset.core n).ctx.pred 0 = true ∧
    ∀ k, k ∉ [0x040, 0x041] → State.reset.csrRead n k = 0

/-- R78, R80, R81, R86, R87, R89: a finite value m * 2^e delivered in a format. It is rounded to the format's precision, or to the spacing of
its subnormals; a value past the largest finite magnitude, rounded as if the exponent were unbounded, overflows as R80 and R81 say. -/
def Claims.Delivery : Prop := ∀ (f : FFmt) (md : RMode) (sat neg : Bool) (m : Nat) (e qu : Int), 0 < m →
  (∀ num, md = .dit num → num < 64) →
  -- qu is the unit of the value's own precision
  2 ^ f.fbits * 2 ^ (qu - e).toNat ≤ m * 2 ^ (e - qu).toNat → m * 2 ^ (e - qu).toNat < 2 * 2 ^ f.fbits * 2 ^ (qu - e).toNat →
  let q := max qu (f.emin - f.fbits)
  let top := f.emax - f.fbits
  let u := (roundTo md neg m e qu).1
  let r := (roundTo md neg m e q).1
  let out := f.round md sat neg m e
  (f.maxSig * 2 ^ (top - qu).toNat < u * 2 ^ (qu - top).toNat →
    out.2 = fOVF ||| fINX ∧
    out.1 = match f with
      | .e2m1 => f.maxCode neg
      | .e4m3 => if sat then f.maxCode neg else 0x7F
      | _ =>
        if sat = true ∨ md = .rtz ∨ (md = .rdn ∧ neg = false) ∨ (md = .rup ∧ neg = true) then f.maxCode neg else f.infCode neg) ∧
  (u * 2 ^ (qu - top).toNat ≤ f.maxSig * 2 ^ (top - qu).toNat →
    (∃ m' e', f.decode out.1 = .fin neg m' e' ∧ m' * 2 ^ (e' - q).toNat = r * 2 ^ (q - e').toNat) ∧ out.1 < 2 ^ f.width ∧
    out.2 = (if (roundTo md neg m e q).2 then fINX else 0) |||
      (if (roundTo md neg m e q).2 = true ∧ u * 2 ^ (qu - f.emin).toNat < 2 ^ (f.emin - qu).toNat then fUNF else 0))

/-- R79-R81, R89: a NaN is delivered as the canonical one; an infinity stays infinite, but into E4M3 and E2M1, which have none. -/
def Claims.NonFinite : Prop := ∀ (f : FFmt) (md : RMode) (sat bad neg : Bool),
  (f ≠ .e2m1 → f.deliver md sat (.nan bad) = (f.canonNaN, if bad then fIVL else 0)) ∧
  FFmt.e2m1.deliver md sat (.nan bad) = (0, fIVL) ∧ FFmt.e2m1.deliver md sat (.inf neg) = (FFmt.e2m1.maxCode neg, fIVL) ∧
  FFmt.e4m3.deliver md sat (.inf neg) = (if sat then FFmt.e4m3.maxCode neg else 0x7F, fIVL) ∧
  (f ≠ .e2m1 → f ≠ .e4m3 →
    f.deliver md sat (.inf neg) = (f.infCode neg, 0) ∧ f.decode (f.infCode neg) = .inf neg ∧ f.decode f.canonNaN = .nan false)

/-- R186: VMIN and VMAX of two elements, and VRND of one. -/
def Claims.MinMaxAndIntegral : Prop := ∀ (f : FFmt) (a b : Nat) (wantMax : Bool) (md : RMode),
  let x := f.decode a
  let y := f.decode b
  let r := fpMinMax f wantMax a b
  let z := f.decode r.1
  f ≠ .e2m1 → a < 2 ^ f.width → b < 2 ^ f.width →
  (x.isNaN = true ∨ y.isNaN = true → r = (f.canonNaN, if x.isSig || y.isSig then fIVL else 0)) ∧
  (x.isNaN = false → y.isNaN = false → r.2 = 0 ∧ (r.1 = a ∨ r.1 = b) ∧
    (wantMax = false → x.lt z = false ∧ y.lt z = false ∧ (x.eq y = true → z.isNeg = (x.isNeg || y.isNeg))) ∧
    (wantMax = true → z.lt x = false ∧ z.lt y = false ∧ (x.eq y = true → z.isNeg = (x.isNeg && y.isNeg)))) ∧
  (x.isNaN = true → rndElem f md a = (f.canonNaN, if x.isSig then fIVL else 0)) ∧
  (∀ neg, x = .inf neg → rndElem f md a = (a, 0)) ∧
  (∀ neg m e, x = .fin neg m e → md ∈ [.rne, .rtz, .rdn, .rup, .rmm] →
    let n := roundTo md neg m e 0
    (∃ m' e', f.decode (rndElem f md a).1 = .fin neg m' e' ∧ m' * 2 ^ e'.toNat = n.1 * 2 ^ (-e').toNat) ∧
    (rndElem f md a).2 = if n.2 then fINX else 0)

/-- R86, R88: the mode that a form's RND field selects, and the dither of an element: its magnitude goes up where its fraction and its
dither term together reach 1. -/
def Claims.ModesAndDither : Prop :=
  (∀ drm ok base idx, modeOf 0 drm ok base idx = .rne ∧ modeOf 1 drm ok base idx = .rtz ∧ modeOf 2 drm ok base idx = .rdn ∧
    modeOf 3 drm ok base idx = .rup ∧ modeOf 4 drm ok base idx = .rmm ∧ modeOf 7 drm ok base idx = .rne ∧
    modeOf 5 drm false base idx = .rne ∧
    modeOf 5 drm true base idx = .dit (ditherNum (idx % 32) ((base + idx / 32 / 8) % 16)) ∧
    (drm < 6 → modeOf 6 drm ok base idx = modeOf drm drm ok base idx) ∧ (6 ≤ drm → modeOf 6 drm ok base idx = .rne)) ∧
  (∀ i ph, ditherNum i ph % 2 = 1 ∧ ditherNum i ph < 64 ∧
    ∀ k, k < 5 → (ditherNum i ph).testBit (k + 1) = ((i + 5 * ph) % 32).testBit (4 - k)) ∧
  ∀ (num : Nat) (neg : Bool) (m : Nat) (e q : Int), e < q → num < 64 →
    let d := 2 ^ (q - e).toNat
    (roundTo (.dit num) neg m e q).1 = m / d + if 64 * d ≤ (m % d) * 64 + num * d then 1 else 0

/-- R77, R80, R81, R191: one element of VCVT between the types that are not BFP. -/
def Claims.Conversions : Prop := ∀ (md : RMode) (sat : Bool) (bits : Nat),
  (∀ ss sb ds db, 0 < db →
    let k := readInt ss sb bits
    let r := convertElem (.int ss sb) (.int ds db) md sat bits
    r.2 = 0 ∧ r.1 < 2 ^ db ∧ readInt ds db r.1 =
      if sat then max (intLo ds db) (min (intHi ds db) k) else if ds then Int.bmod k (2 ^ db) else k % 2 ^ db) ∧
  (∀ ss sb f, f ≠ FFmt.e2m1 →
    let k := readInt ss sb bits
    let r := f.deliver md sat (.val (decide (k < 0)) k.natAbs 0)
    convertElem (.int ss sb) (.fp f) md sat bits = (r.1, if f = .e5m2 ∨ f = .e4m3 then r.2 else r.2 &&& fINX)) ∧
  (∀ f ds db, f ≠ FFmt.e2m1 → 0 < db →
    let r := convertElem (.fp f) (.int ds db) md sat bits
    let is : Int → Flags → Prop := fun k fl => r.1 < 2 ^ db ∧ readInt ds db r.1 = k ∧ r.2 = fl
    ((f.decode bits).isNaN = true → is 0 fIVL) ∧
    (∀ neg, f.decode bits = .inf neg → is (if neg then intLo ds db else intHi ds db) fIVL) ∧
    (∀ neg m e, f.decode bits = .fin neg m e →
      let n := roundTo (match md with | .dit _ => .rne | x => x) neg m e 0
      let k : Int := if neg then -(n.1 : Int) else n.1
      (k < intLo ds db → is (intLo ds db) fIVL) ∧ (intHi ds db < k → is (intHi ds db) fIVL) ∧
      (intLo ds db ≤ k → k ≤ intHi ds db → is k (if n.2 then fINX else 0)))) ∧
  ∀ f g : FFmt, convertElem (.fp f) (.fp g) md sat bits = g.deliver md sat (f.decode bits).exact

/-- R82-R84: an element of a decoded block: its mantissa times the block's unit. -/
def Claims.BlockDecode : Prop := ∀ (w slot i : Nat), 2 ≤ w → w ≤ 8 → i < 32 →
  let m := sextNat (slot / 2 ^ (24 + i * w) % 2 ^ w) w
  let wid := slot / 2 ^ 16 % 8
  (wid = 7 → bfpDecodeElem w slot i = .nan true) ∧
  (wid ≠ 7 → slot / 2 ^ 19 % 2 = 1 ∨ m = 0 → bfpDecodeElem w slot i = .fin false 0 0) ∧
  (wid ≠ 7 → slot / 2 ^ 19 % 2 = 0 → m ≠ 0 → ∃ neg k e, bfpDecodeElem w slot i = .fin neg k e ∧
    (if neg then -(k : Int) else k) = m * (256 + (slot / 2 ^ 8 % 2 ^ 8 : Nat)) ∧ e = (slot % 2 ^ 8 : Nat) - 127 - 8 - ((w : Int) - 1))

/-- R82, R83, R85, R88: the slot of an encoded block and the conditions of its elements: the scale that the largest magnitude gives, each
mantissa the quotient by the unit, rounded or dithered and clamped, and the blocks that are zero or hold an infinity. -/
def Claims.BlockEncode : Prop := ∀ (w : Nat) (phase : Option Nat) (xs : List Machine.Num), 2 ≤ w → w ≤ 8 → xs.length = 32 →
  (∀ p, phase = some p → p < 16) →
  let out := bfpEncode w false phase xs
  let q : Int := 2 ^ (w - 1) - 1
  let fsOf := out.1 / 2 ^ 8 % 2 ^ 8
  let eOf : Int := (out.1 % 2 ^ 8 : Nat) - 127
  let mant : Nat → Int := fun i => sextNat (out.1 / 2 ^ (24 + i * w) % 2 ^ w) w
  let hasInf : Prop := ∃ neg, Machine.Num.inf neg ∈ xs
  let zero : Prop := ¬ hasInf ∧ ∀ neg m e, Machine.Num.fin neg m e ∈ xs → m = 0
  out.2.length = 32 ∧ out.1 < 2 ^ (8 * (4 * w + 3)) ∧
  (zero → out.1 = 2 ^ 19 + (w - 2) * 2 ^ 16 ∧ ∀ (i : Nat) (x : Machine.Num), xs[i]? = some x → out.2[i]? = some (if x.isNaN then fIVL ||| fINX else 0)) ∧
  (¬ zero → out.1 / 2 ^ 16 % 8 = w - 2 ∧ out.1 / 2 ^ 20 % 16 = phase.getD 0 ∧ (out.1 / 2 ^ 19 % 2 = 1 ↔ ∀ i, i < 32 → mant i = 0) ∧
    (hasInf → eOf = 127 ∧ fsOf = 255) ∧
    -- m * 2^ex is the largest magnitude of the block
    (∀ neg m ex, ¬ hasInf → Machine.Num.fin neg m ex ∈ xs → 0 < m →
      (∀ n' m' e', Machine.Num.fin n' m' e' ∈ xs → m' * 2 ^ (e' - ex).toNat ≤ m * 2 ^ (ex - e').toNat) →
      ∃ (e : Int) (fs : Nat),
        let t := m * 2 ^ (w - 1) * 2 ^ (ex - e).toNat
        let b := (2 ^ (w - 1) - 1) * 2 ^ (e - ex).toNat
        b ≤ t ∧ t < 2 * b ∧ 256 * t ≤ (256 + fs) * b ∧ (255 + fs) * b < 256 * t ∧
        let e1 := if fs = 256 then e + 1 else e
        if e1 < -119 then eOf = -119 ∧ fsOf = 0
        else if 127 < e1 then eOf = 127 ∧ fsOf = 255
        else eOf = e1 ∧ fsOf = if fs = 256 then 0 else fs) ∧
    ∀ (i : Nat) (x : Machine.Num), xs[i]? = some x → ∃ fl, out.2[i]? = some fl ∧
      (x.isNaN = true → mant i = 0 ∧ fl = fIVL ||| fINX) ∧
      (∀ neg, x = .inf neg → mant i = (if neg then -q else q) ∧ fl = fIVL ||| fINX) ∧
      (∀ neg m ex, x = .fin neg m ex →
        let u := eOf - 7 - w
        let num : Int := (if neg then -1 else 1) * (m * 2 ^ (ex - u).toNat : Nat)
        let den : Int := ((256 + fsOf) * 2 ^ (u - ex).toNat : Nat)
        ∃ v : Int, mant i = max (-q) (min q v) ∧
          fl = (if mant i ≠ v then fOVF ||| fINX else 0) ||| (if num = mant i * den then 0 else fINX) ∧
          (match phase with
           | none => 2 * (v * den - num).natAbs ≤ den.natAbs ∧ (2 * (v * den - num).natAbs = den.natAbs → v % 2 = 0)
           | some p => v * (64 * den) ≤ 64 * num + ditherNum i p * den ∧ 64 * num + ditherNum i p * den < (v + 1) * (64 * den))))

/-- R191: what VCVT does with a tile: each selected element converted; or, with BFP, blocks in their slots one after another. -/
def Claims.ConvertedTiles : Prop := ∀ (u : VecUnit) (s : State), Passes (.vcvt u) s →
  let v := vecIn s.turn.ops
  let src := v.form.stype
  let dst := v.form.type
  let w := v.form.cbw + 2
  let dit := v.form.rnd = 5 ∨ (v.form.rnd = 6 ∧ v.drm = 5)
  (src ≠ .bfp → dst ≠ .bfp → Gives (.vcvt u) s (tileDone s u.fu (vlat s 5) dst.width (fun q =>
    convertElem src dst (modeOf v.form.rnd v.drm (decide (dst = .fp .e2m1 ∨ dst = .fp .e4m3)) v.dph q) (v.satFor dst)
      (elem v.a src.width q)) false)) ∧
  (∀ f, src = .bfp → dst = .fp f →
    let r := (List.range v.n).map (fun q =>
      f.deliver .rne (v.satFor dst) (bfpDecodeElem w (elem v.a (8 * (4 * w + 3)) (q / 32)) (q % 32)).exact)
    Gives (.vcvt u) s (vecDone s u.fu (vlat s 5) [(0, .v (tileOf f.width (r.map (fun p => p.1))))] (r.map (fun p => p.2)) false)) ∧
  (∀ f, src = .fp f → dst = .bfp → ∃ block : Nat → Nat × List Flags,
    (∀ k, (dit → block k = bfpEncode w false (some ((v.dph + k / 8) % 16)) ((List.range 32).map (fun i => f.decode (elem v.a f.width (32 * k + i))))) ∧
      (¬ dit → block k = bfpEncode w false none ((List.range 32).map (fun i => f.decode (elem v.a f.width (32 * k + i)))))) ∧
    Gives (.vcvt u) s (vecDone s u.fu (vlat s 5)
      [(0, .v (tileOf (8 * (4 * w + 3)) ((List.range (v.n / 32)).map (fun k => (block k).1))))]
      ((List.range (v.n / 32)).flatMap (fun k => (block k).2)) false))

/-- R77, R80-R82, R84-R88, R186, R191: what VMIN, VMAX, VRND and VCVT give, element by element, and how any floating-point result is delivered in its
format. Which conversions raise overflow and how a value outside an integer's range is judged are logs 67 and 66; a BFP block is logs 14, 15 and 68,
and a negative element of a dithered block log 85. -/
def Obligations.ElementResultsAndConversions : Prop := Claims.Delivery ∧ Claims.NonFinite ∧ Claims.MinMaxAndIntegral ∧ Claims.ModesAndDither ∧
  Claims.Conversions ∧ Claims.BlockDecode ∧ Claims.BlockEncode ∧ Claims.ConvertedTiles

/-- R95-R99: the tables of the estimates, each entry by the bounds that define it, and how near an entry is to every argument of its interval. -/
def Claims.EstimateTables : Prop := ∀ k, k < 64 →
  let mid := if k = 0 then 128 else 129 + 2 * k
  let frac := if k = 0 then 0 else 2 * k + 1
  (∀ P, P < 2 → let T := rsqeT P k;
    4 * 4096 ^ 2 * 128 ≤ (2 * T + 1) ^ 2 * (2 ^ P * mid) ∧ (2 * T - 1) ^ 2 * (2 ^ P * mid) ≤ 4 * 4096 ^ 2 * 128 ∧
    64 * 4096 ^ 2 * 127 ^ 2 < T ^ 2 * 2 ^ P * (64 + k) * 128 ^ 2 ∧ T ^ 2 * 2 ^ P * (65 + k) * 128 ^ 2 < 64 * 4096 ^ 2 * 129 ^ 2) ∧
  (let T := rcpeT k;
    2 * 4096 * 128 ≤ (2 * T + 1) * mid ∧ (2 * T - 1) * mid ≤ 2 * 4096 * 128 ∧
    64 * 4096 * 63 < T * (64 + k) * 64 ∧ T * (65 + k) * 64 ≤ 64 * 4096 * 65) ∧
  (let T := exp2T k;
    8192 ^ 128 * 2 ^ frac ≤ (2 * T + 1) ^ 128 ∧ (2 * T - 1) ^ 128 ≤ 8192 ^ 128 * 2 ^ frac ∧
    (4096 * 63) ^ 64 * 2 ^ (k + 1) < (T * 64) ^ 64 ∧ (T * 64) ^ 64 ≤ (4096 * 65) ^ 64 * 2 ^ k) ∧
  (let T := log2T k;
    2 ^ (2 * T) * 128 ^ 8192 ≤ 2 * mid ^ 8192 ∧ mid ^ 8192 ≤ 2 ^ (2 * T) * 2 * 128 ^ 8192 ∧
    64 ^ 4096 * 2 ^ T < (64 + k) ^ 4096 * 2 ^ 128 ∧ (65 + k) ^ 4096 ≤ 2 ^ (T + 128) * 64 ^ 4096) ∧
  (k = 0 → rsqeT 0 k = 4096 ∧ rcpeT k = 4096 ∧ exp2T k = 4096 ∧ log2T k = 0)

/-- R96-R100, R199: one element of RSQE, RCPE, EXP2E and LOG2E: the entry of its interval times its power of two, delivered in the format, and the
operands that are zero, negative, infinite or NaN. -/
def Claims.Estimates : Prop := ∀ (f : FFmt) (bits : Nat), f ∈ [.fp64, .fp32, .fp16, .bf16] →
  let x := f.decode bits
  let wide : Prop := f = .fp64 ∨ f = .fp32
  -- the tables' results raise no inexact in FP32 and FP64
  let shown : Nat × Flags → Nat × Flags → Prop := fun r d => r.1 = d.1 ∧ (wide → r.2 = d.2 &&& ~~~fINX) ∧ (¬ wide → r.2 = d.2)
  (∀ sg op, x = .nan sg → estElem op f bits = (f.canonNaN, if sg then fIVL else 0)) ∧
  (x = .inf false → estElem .rsqe f bits = (0, 0) ∧ estElem .rcpe f bits = (0, 0) ∧
    estElem .exp2e f bits = (f.infCode false, 0) ∧ estElem .log2e f bits = (f.infCode false, 0)) ∧
  (x = .inf true → estElem .rcpe f bits = (2 ^ (f.width - 1), 0) ∧ estElem .exp2e f bits = (0, 0)) ∧
  (∀ neg e, x = .fin neg 0 e → estElem .rsqe f bits = (f.infCode neg, fDZ) ∧ estElem .rcpe f bits = (f.infCode neg, fDZ) ∧
    estElem .log2e f bits = (f.infCode true, fDZ)) ∧
  (∀ m e, x = .fin true m e → 0 < m → estElem .rsqe f bits = (f.canonNaN, fIVL) ∧ estElem .log2e f bits = (f.canonNaN, fIVL)) ∧
  (∀ (neg : Bool) (m : Nat) (e E : Int) (k : Nat), x = .fin neg m e → k < 64 →
    -- the argument is m' * 2^E with m' in [1, 2), and k its top six fraction bits
    (64 + k) * 2 ^ (E - e).toNat ≤ m * 64 * 2 ^ (e - E).toNat → m * 64 * 2 ^ (e - E).toNat < (65 + k) * 2 ^ (E - e).toNat →
    (neg = false → shown (estElem .rsqe f bits) (f.round .rne false false (rsqeT (E % 2).toNat k) (-12 - (E - E % 2) / 2))) ∧
    shown (estElem .rcpe f bits) (f.round .rne false neg (rcpeT k) (-12 - E)) ∧
    (neg = false →
      let v : Int := E * 4096 + log2T k
      shown (estElem .log2e f bits) (f.round .rne false (decide (v < 0)) v.natAbs (-12)))) ∧
  (∀ (neg : Bool) (m : Nat) (e n : Int) (k : Nat), x = .fin neg m e → k < 64 →
    -- the argument lies in [n + k / 64, n + (k + 1) / 64)
    let a : Int := (if neg then -1 else 1) * (m * 2 ^ (e + 6).toNat : Nat)
    let d : Int := 2 ^ (-(e + 6)).toNat
    a ≥ (64 * n + k) * d → a < (64 * n + k + 1) * d →
    let r := f.round .rne false false (exp2T k) (n - 12)
    (estElem .exp2e f bits).1 = r.1 ∧
      (estElem .exp2e f bits).2 = if r.2 &&& fUNF = 0 then r.2 &&& ~~~fINX else r.2)

/-- R199: one element of SQRT: the root rounded once in the form's mode, to the format's precision. -/
def Claims.SquareRoot : Prop := ∀ (f : FFmt) (md : RMode) (sat : Bool) (bits : Nat), f ∈ [.fp64, .fp32, .fp16, .bf16] →
  let x := f.decode bits
  let out := sqrtElem f md sat bits
  (∀ sg, x = .nan sg → out = (f.canonNaN, if sg then fIVL else 0)) ∧ (x = .inf false → out = (f.infCode false, 0)) ∧
  (x = .inf true → out = (f.canonNaN, fIVL)) ∧ (∀ m e, x = .fin true m e → 0 < m → out = (f.canonNaN, fIVL)) ∧
  (∀ neg e, x = .fin neg 0 e → out = (if neg then 2 ^ (f.width - 1) else 0, 0)) ∧
  (∀ (m : Nat) (e q : Int), x = .fin false m e → 0 < m → md ∈ [.rne, .rtz, .rdn, .rup, .rmm] →
    -- in units of 2^q the root has the format's precision
    let sq : Nat → Nat := fun r => r ^ 2 * 2 ^ (2 * q - e).toNat
    let b := m * 2 ^ (e - 2 * q).toNat
    sq (2 ^ f.fbits) ≤ b → b < sq (2 * 2 ^ f.fbits) →
    ∃ (r m' : Nat) (e' : Int), f.decode out.1 = .fin false m' e' ∧ m' * 2 ^ (e' - q).toNat = r * 2 ^ (q - e').toNat ∧
      (md = .rdn ∨ md = .rtz → sq r ≤ b ∧ b < sq (r + 1)) ∧ (md = .rup → sq (r - 1) < b ∧ b ≤ sq r) ∧
      (md = .rne ∨ md = .rmm → sq (2 * r - 1) ≤ 4 * b ∧ 4 * b ≤ sq (2 * r + 1)) ∧
      out.2 = if sq r = b then 0 else fINX)

/-- R95-R100, R199: what SFN's operations give, element by element. That an overflow of RCPE or EXP2E is an infinity under SAT too is log 83, and
that an exact subnormal EXP2E raises nothing log 84. -/
def Obligations.SpecialFunctionResults : Prop := Claims.EstimateTables ∧ Claims.Estimates ∧ Claims.SquareRoot
end

