-- ==== Sys2Proof/Laws/Ops.lean ====
section
/-! SUPPORT. One lemma per shared operation: what a table answers after a write, what the wrappers of the meanings can answer, and what
putting an operation in flight, stopping issue and the trap entry do. Later proofs cite these and unfold none of them. -/

namespace Sys2Proof.Machine

/-! ## Tables: a read after a write -/

@[simp] theorem State.core_setCore_self (s : State) (n : Nat) (x : Core) : (s.setCore n x).core n = x := NMap.get_set_self _ _ _ _
theorem State.core_setCore_ne (s : State) {n m : Nat} (x : Core) (h : m ≠ n) : (s.setCore n x).core m = s.core m := NMap.get_set_ne _ _ _ h

@[simp] theorem State.buf_setBuf_self (s : State) (n : Nat) (x : Buf) : (s.setBuf n x).buf n = x := NMap.get_set_self _ _ _ _
theorem State.buf_setBuf_ne (s : State) {n m : Nat} (x : Buf) (h : m ≠ n) : (s.setBuf n x).buf m = s.buf m := NMap.get_set_ne _ _ _ h

@[simp] theorem State.eng_setEng_self (s : State) (n : Nat) (x : Engine) : (s.setEng n x).eng n = x := NMap.get_set_self _ _ _ _
theorem State.eng_setEng_ne (s : State) {n m : Nat} (x : Engine) (h : m ≠ n) : (s.setEng n x).eng m = s.eng m := NMap.get_set_ne _ _ _ h

@[simp] theorem State.part_setPart_self (s : State) (n : Nat) (x : Part) : (s.setPart n x).part n = x := NMap.get_set_self _ _ _ _
theorem State.part_setPart_ne (s : State) {n m : Nat} (x : Part) (h : m ≠ n) : (s.setPart n x).part m = s.part m := NMap.get_set_ne _ _ _ h

@[simp] theorem State.rcb_setRcb_self (s : State) (n : Nat) (x : Rcb) : (s.setRcb n x).rcb n = x := NMap.get_set_self _ _ _ _
theorem State.rcb_setRcb_ne (s : State) {n m : Nat} (x : Rcb) (h : m ≠ n) : (s.setRcb n x).rcb m = s.rcb m := NMap.get_set_ne _ _ _ h

@[simp] theorem State.node_setNode_self (s : State) (n : Nat) (x : Node) : (s.setNode n x).node n = x := NMap.get_set_self _ _ _ _
theorem State.node_setNode_ne (s : State) {n m : Nat} (x : Node) (h : m ≠ n) : (s.setNode n x).node m = s.node m := NMap.get_set_ne _ _ _ h

@[simp] theorem State.crew_setCrew_self (s : State) (n : Nat) (x : Crew) : (s.setCrew n x).crew n = x := NMap.get_set_self _ _ _ _
theorem State.crew_setCrew_ne (s : State) {n m : Nat} (x : Crew) (h : m ≠ n) : (s.setCrew n x).crew m = s.crew m := NMap.get_set_ne _ _ _ h

@[simp] theorem State.inst_setInst_self (s : State) (n : Nat) (x : Inst) : (s.setInst n x).inst n = x := NMap.get_set_self _ _ _ _
theorem State.inst_setInst_ne (s : State) {n m : Nat} (x : Inst) (h : m ≠ n) : (s.setInst n x).inst m = s.inst m := NMap.get_set_ne _ _ _ h

@[simp] theorem State.walker_setWalker_self (s : State) (n : Nat) (x : Walker) : (s.setWalker n x).walker n = x := NMap.get_set_self _ _ _ _
theorem State.walker_setWalker_ne (s : State) {n m : Nat} (x : Walker) (h : m ≠ n) : (s.setWalker n x).walker m = s.walker m := NMap.get_set_ne _ _ _ h

@[simp] theorem State.siteDisc_setDisc_self (s : State) (n : Nat) (x : Disc) : (s.setDisc n x).siteDisc n = x := NMap.get_set_self _ _ _ _
theorem State.siteDisc_setDisc_ne (s : State) {n m : Nat} (x : Disc) (h : m ≠ n) : (s.setDisc n x).siteDisc m = s.siteDisc m := NMap.get_set_ne _ _ _ h

@[simp] theorem State.core_modCore_self (s : State) (n : Nat) (f : Core → Core) : (s.modCore n f).core n = f (s.core n) :=
  State.core_setCore_self _ _ _
theorem State.core_modCore_ne (s : State) {n m : Nat} (f : Core → Core) (h : m ≠ n) : (s.modCore n f).core m = s.core m :=
  State.core_setCore_ne _ _ h
@[simp] theorem State.core_modCtx_self (s : State) (n : Nat) (f : Ctx → Ctx) : (s.modCtx n f).core n = (s.core n).modCtx f :=
  State.core_modCore_self _ _ _
theorem State.core_modCtx_ne (s : State) {n m : Nat} (f : Ctx → Ctx) (h : m ≠ n) : (s.modCtx n f).core m = s.core m :=
  State.core_modCore_ne _ _ h
@[simp] theorem State.part_modPart_self (s : State) (p : Nat) (f : Part → Part) : (s.modPart p f).part p = f (s.part p) :=
  State.part_setPart_self _ _ _
theorem State.part_modPart_ne (s : State) {p q : Nat} (f : Part → Part) (h : q ≠ p) : (s.modPart p f).part q = s.part q :=
  State.part_setPart_ne _ _ h

/-- Changing one queue of a partition changes that queue and no other. -/
theorem State.queue_modQueue_self (s : State) (p q : Nat) (f : LaunchQ → LaunchQ) :
    ((s.modQueue p q f).part p).queue q = f ((s.part p).queue q) := by
  simp [State.modQueue, Part.queue, NMap.get_set_self]
theorem State.queue_modQueue_ne (s : State) {p q r : Nat} (f : LaunchQ → LaunchQ) (h : r ≠ q) :
    ((s.modQueue p q f).part p).queue r = (s.part p).queue r := by
  simp [State.modQueue, Part.queue, NMap.get_set_ne _ _ _ h]

/-! ## Free values -/

/-- Reading a free value advances the counter and changes nothing else; the value is below its bound. -/
theorem State.draw_state (s : State) (n : Nat) : (s.draw n).2 = { s with draws := s.draws + 1 } := rfl
theorem State.draw_lt (s : State) {n : Nat} (h : 0 < n) : (s.draw n).1 < n := Nat.mod_lt _ h
theorem State.flip_state (s : State) : s.flip.2 = { s with draws := s.draws + 1 } := rfl

/-! ## Result windows (R145) -/

/-- A new result stands at depth 0 and every older one moves down by one. -/
theorem Win.push_at {α : Type} (w : Win α) (x : α) :
    (w.push x).at 0 = x ∧ (w.push x).at 1 = w.at 0 ∧ (w.push x).at 2 = w.at 1 ∧ (w.push x).at 3 = w.at 2 := ⟨rfl, rfl, rfl, rfl⟩

/-- A scalar result moves one scalar window and leaves the rest of the context. -/
theorem Ctx.pushResult_scalar (x : Ctx) (fu : FU) (port : Nat) (w : Word) :
    x.pushResult fu port (.s w) =
      { x with swin := x.swin.set (winKey fu port) ((x.swin.get (winKey fu port) (Win.zero 0)).push w) } := rfl

/-! ## Putting an operation in flight -/

/-- An operation that raises nothing is one that raises no condition. -/
theorem State.emit_eq (s : State) (fu : FU) (lat : Nat) (writes : List (Nat × ResVal)) :
    s.emit fu lat writes = s.emitFp fu lat writes 0 0 0 false := rfl

/-- Nothing changes but the operation number of the strand and the operations in flight on its core. -/
theorem State.emitFp_core (s : State) (fu : FU) (lat : Nat) (writes : List (Nat × ResVal)) (raised enabled : BitVec 5) (lowest : Nat)
    (macC : Bool) :
    ∃ e : InFlight, e.fu = fu ∧ e.due = (s.core s.turn.core).age + lat ∧ e.seq = (s.core s.turn.core).ctx.seq + 1 ∧ e.writes = writes ∧
      e.raised = raised ∧ e.enabled = enabled ∧
      (s.emitFp fu lat writes raised enabled lowest macC).core s.turn.core =
        { s.core s.turn.core with ctx := (s.core s.turn.core).ctx.nextSeq, inflight := (s.core s.turn.core).inflight ++ [e] } := by
  refine ⟨_, ?_, ?_, ?_, ?_, ?_, ?_, State.core_modCore_self _ _ _⟩ <;> rfl
theorem State.emitFp_core_ne (s : State) (fu : FU) (lat : Nat) (writes : List (Nat × ResVal)) (raised enabled : BitVec 5) (lowest : Nat)
    (macC : Bool) {m : Nat} (h : m ≠ s.turn.core) : (s.emitFp fu lat writes raised enabled lowest macC).core m = s.core m :=
  State.core_modCore_ne _ _ h
theorem State.emitFp_rest (s : State) (fu : FU) (lat : Nat) (writes : List (Nat × ResVal)) (raised enabled : BitVec 5) (lowest : Nat)
    (macC : Bool) :
    s.emitFp fu lat writes raised enabled lowest macC =
      { s with cores := (s.emitFp fu lat writes raised enabled lowest macC).cores } := rfl

/-! ## Stopping issue, and the trap slot -/

/-- Stopping issue changes one core only: it drains for the reason given, with no hold and no freeze, and its registers stand. -/
theorem State.stopIssue_core (s : State) (n : Nat) (w : Stop) :
    ((s.stopIssue n w).core n).mode = .drain w ∧ ((s.stopIssue n w).core n).hold = none ∧ ((s.stopIssue n w).core n).freeze = none ∧
      ((s.stopIssue n w).core n).inflight = (s.core n).inflight ∧
      ((s.stopIssue n w).core n).ctx = { (s.core n).ctx with
        arith := ((s.stopIssue n w).core n).ctx.arith, vxuLong := ((s.stopIssue n w).core n).ctx.vxuLong,
        vlsLong := ((s.stopIssue n w).core n).ctx.vlsLong, noted := ((s.stopIssue n w).core n).ctx.noted } := by
  cases hb : (s.core n).busy <;> simp [State.stopIssue, Ctx.parkLongs, hb]
theorem State.stopIssue_core_ne (s : State) {n m : Nat} (w : Stop) (h : m ≠ n) : (s.stopIssue n w).core m = s.core m :=
  State.core_modCore_ne _ _ h
theorem State.stopIssue_rest (s : State) (n : Nat) (w : Stop) : s.stopIssue n w = { s with cores := (s.stopIssue n w).cores } := rfl

/-- The trap slot holds what trap entry found. -/
theorem Ctx.enterTrap_slot (x : Ctx) (t : TrapInfo) : (x.enterTrap t).trapSlot = some x.saveTrap := rfl

/-! ## The wrappers of the meanings -/

/-- A triggered operation whose checks passed has its effect. -/
theorem guarded_passes {chk : State → Check} {eff : State → State} {s : State} (h : s.turn.checked = true ∨ chk s = .ok) :
    guarded chk eff s = .next (eff s) := by
  unfold guarded
  rcases h with h | h
  · simp [h]
  · simp [h]

/-- A triggered operation always answers a next state: its effect, a frozen core, or a core that stops issue for what its checks find. -/
theorem guarded_cases (chk : State → Check) (eff : State → State) (s : State) :
    (guarded chk eff s = .next (eff s) ∧ (s.turn.checked = true ∨ chk s = .ok)) ∨
    (s.turn.checked = false ∧ (∃ k, chk s = .freeze k) ∧
      guarded chk eff s = .next (s.modCore s.turn.core (fun c => { c with frozen := true }))) ∨
    (s.turn.checked = false ∧ ∃ f, chk s = .fault f ∧ guarded chk eff s = .next (s.stopIssue s.turn.core (.fault f))) ∨
    (s.turn.checked = false ∧ ∃ t, chk s = .trap t ∧ guarded chk eff s = .next (s.stopIssue s.turn.core (.trap t))) := by
  unfold guarded
  cases hc : s.turn.checked
  · cases hk : chk s <;> simp
  · simp

/-- An owner's command answers a next state: its effect, with its status in the partition's control page. -/
theorem command_eq (f : State → Nat → Nat × State) (s : State) :
    command f s = .next ((f s s.turn.part).2.cmdDone s.turn.part (f s s.turn.part).1) := rfl

/-- A management command answers a next state: its effect, with its status in its mailbox. -/
theorem mgmtCmd_eq (f : State → Nat × State) (s : State) :
    mgmtCmd f s = .next { (f s).2 with mgmt := (f s).2.mgmt.done s.turn.item (f s).1 } := rfl

/-- A launch packet has its effect once, when it is at its queue's head and has not started. -/
theorem startPkt_cases (f : State → State) (s : State) :
    (∃ k, s.turnPkt = some k ∧ k.started = none ∧ startPkt f s = .next (f s)) ∨ startPkt f s = .next s := by
  unfold startPkt
  cases hk : s.turnPkt with
  | none => simp
  | some k =>
    cases hs : k.started <;> simp [hs]

/-- An engine that runs no entry does nothing. -/
theorem runEntry_idle {noop : Bool} {chk : State → QEnt → Option EngErr} {unit : State → Act → UnitRes} {s : State}
    (h : s.active s.turn.engine = none) : runEntry noop chk unit s = .next s := by
  simp only [runEntry]
  rw [h]

/-- A zero length or count completes the entry (R299). -/
theorem runEntry_noop {chk : State → QEnt → Option EngErr} {unit : State → Act → UnitRes} {s : State} {a : Act}
    (h : s.active s.turn.engine = some a) : runEntry true chk unit s = .next (s.finishEntry s.turn.engine) := by
  simp only [runEntry]
  rw [h]
  rfl

/-- A check that fails stops the entry, before anything of it is done. -/
theorem runEntry_stops {chk : State → QEnt → Option EngErr} {unit : State → Act → UnitRes} {s : State} {a : Act} {r : EngErr}
    (h : s.active s.turn.engine = some a) (hc : a.checked = false) (hk : chk s a.ent = some r) :
    runEntry false chk unit s = .next (s.stopEntry s.turn.engine r) := by
  simp only [runEntry]
  rw [h]
  simp [hc, hk]

/-- The state in which a unit of an entry runs: its checks are made. -/
def State.entryChecked (s : State) : State := s.modCur s.turn.engine (fun x => x.modAct (fun b => { b with checked := true }))

/-- An entry whose checks passed runs one unit of its work: it goes on from a progress index, it has run, it waits, or it stops. -/
theorem runEntry_unit {chk : State → QEnt → Option EngErr} {unit : State → Act → UnitRes} {s : State} {a : Act}
    (h : s.active s.turn.engine = some a) (hc : a.checked = true ∨ chk s a.ent = none) :
    (∀ u p, unit s.entryChecked a = .more u p →
      runEntry false chk unit s = .next (u.modCur s.turn.engine (fun x => x.modAct (fun b => { b with prog := p })))) ∧
    (∀ u, unit s.entryChecked a = .done u → runEntry false chk unit s = .next (u.finishEntry s.turn.engine)) ∧
    (unit s.entryChecked a = .wait → runEntry false chk unit s = .next s.entryChecked) ∧
    (∀ r, unit s.entryChecked a = .err r → runEntry false chk unit s = .next (s.entryChecked.stopEntry s.turn.engine r)) ∧
    (∀ u r, unit s.entryChecked a = .errAt u r → runEntry false chk unit s = .next (u.stopEntry s.turn.engine r)) := by
  have hn : (if a.checked = true then none else chk s a.ent) = none := by
    rcases hc with hc | hc <;> simp [hc]
  have key : runEntry false chk unit s =
      (match unit s.entryChecked a with
       | .more u p => .next (u.modCur s.turn.engine (fun x => x.modAct (fun b => { b with prog := p })))
       | .done u => .next (u.finishEntry s.turn.engine)
       | .wait => .next s.entryChecked
       | .err r => .next (s.entryChecked.stopEntry s.turn.engine r)
       | .errAt u r => .next (u.stopEntry s.turn.engine r)) := by
    simp only [runEntry]
    rw [h]
    simp only [Bool.false_eq_true, if_false]
    rw [hn]
    rfl
  rw [key]
  refine ⟨?_, ?_, ?_, ?_, ?_⟩ <;> intros <;> simp_all

end Sys2Proof.Machine
end

