-- ==== Sys2Proof/Tests/Slice0.lean ====
section
/-! SUPPORT. Tests: ill-formed terms that WellFormed refuses, words written out from the spec's encodings, single steps on small states,
and for each statement with hypotheses a state and operands that meet them. -/

namespace Sys2Proof.Tests

open Sys2Proof Sys2Proof.Machine Claims

-- One theorem at a time: evaluated side by side, the theorems below ask for more threads than the check allows.
set_option Elab.async false

/-! ## Decoding -/

/-- A tile command word: OPC, T with TAG 9, and a body (R122). -/
def tw (opc body : Nat) : Bits256 := BitVec.ofNat 256 (opc * 2 ^ 248 + 1 * 2 ^ 247 + 9 * 2 ^ 238 + body)

/-- Its header. -/
def hT : TcHdr := { t := true, b := false, i := false, k := false, tag := 9 }

/-- Words decode as listed. -/
def tiles (l : List (Bits256 × Instr)) : Bool := l.all (fun p => decodeTile p.1 == some p.2)

/-- R300-R308: the copy class. -/
theorem test_decode_copy : tiles
    [(tw 0x00 (1 * 2 ^ 184 + 2 * 2 ^ 136 + 3 * 2 ^ 112 + 4 * 2 ^ 88 + 5 * 2 ^ 56 + 6 * 2 ^ 24), .copy hT ⟨1, 2, 3, 4, 5, 6⟩),
     (tw 0x01 (1 * 2 ^ 184 + 2 * 2 ^ 136 + 3 * 2 ^ 112 + 4 * 2 ^ 88 + 5 * 2 ^ 56 + 8 * 2 ^ 24 + 6 * 2 ^ 13 + 2 ^ 12), .copyx hT ⟨1, 2, 3, 4, 5, 8, 6, true, false⟩),
     (tw 0x02 (1 * 2 ^ 184 + 2 * 2 ^ 136 + 3 * 2 ^ 72 + 2 * 2 ^ 70), .fill hT ⟨1, 2, 3, 2⟩),
     (tw 0x03 (8 * 2 ^ 184 + 16 * 2 ^ 136 + 24 * 2 ^ 112 + 4 * 2 ^ 88 + 32 * 2 ^ 56 + 40 * 2 ^ 24 + 14 * 2 ^ 20 + 1 * 2 ^ 18 + 3 * 2 ^ 15 + 2 ^ 14),
       .accw hT ⟨8, 16, 24, 4, 32, 40, 14, 1, 3, true⟩),
     (tw 0x04 (8 * 2 ^ 184 + 5 * 2 ^ 181 + 2 ^ 180 + 7 * 2 ^ 175 + 2 ^ 174 + 1 * 2 ^ 110 + 2 * 2 ^ 46), .atom hT ⟨8, 5, true, 7, true, 1, 2⟩),
     (tw 0x05 (32 * 2 ^ 184 + 2 * 2 ^ 168 + 3 * 2 ^ 144 + 8 * 2 ^ 96 + 16 * 2 ^ 48 + 5 * 2 ^ 37 + 2 ^ 36 + 33 * 2 ^ 29), .chain hT ⟨32, 2, 3, 8, 16, 5, true, false, 33⟩),
     (tw 0x06 (8 * 2 ^ 184 + 2 ^ 183 + 5 * 2 ^ 119), .sigop hT ⟨8, true, 5⟩), (tw 0x07 (3 * 2 ^ 216), .xfen hT ⟨3⟩),
     (tw 0x08 (1 * 2 ^ 184 + 2 * 2 ^ 136 + 3 * 2 ^ 112 + 511 * 2 ^ 103 + 16 * 2 ^ 98 + 1 * 2 ^ 88 + 8 * 2 ^ 40 + 2 ^ 39),
       .coll hT ⟨1, 2, 3, 511, 16, false, 0, 0, 1, 8, true⟩)] = true := by decide +kernel

/-- R314-R320: the matrix class. -/
theorem test_decode_matrix : tiles
    [(tw 0x20 (64 * 2 ^ 225), .mlease hT ⟨64⟩), (tw 0x27 0, .mrelease hT),
     (tw 0x21 (64 * 2 ^ 207 + 2 * 2 ^ 191 + 3 * 2 ^ 175 + 128 * 2 ^ 151 + 5 * 2 ^ 111 + 6 * 2 ^ 79), .mloadw hT ⟨64, 2, 3, 128, .buf 5 6⟩),
     (tw 0x22 (2 ^ 231 + 64 * 2 ^ 207 + 2 * 2 ^ 191 + 64 * 2 ^ 175 + 128 * 2 ^ 151 + 192 * 2 ^ 127 + 64 * 2 ^ 103 + 128 * 2 ^ 79 + 9 * 2 ^ 75 + 3 * 2 ^ 59),
       .mloada hT ⟨64, 2, 64, 128, .shared 192 64 128 9 3⟩),
     (tw 0x23 (0 * 2 ^ 228 + 0 * 2 ^ 224 + 8 * 2 ^ 203 + 16 * 2 ^ 183 + 24 * 2 ^ 161 + 32 * 2 ^ 140 + 40 * 2 ^ 120 + 48 * 2 ^ 104 + 31 * 2 ^ 99 + 63 * 2 ^ 93 + 32 * 2 ^ 73),
       .mmul hT ⟨0, 0, 8, 16, 24, 32, 40, 48, 31, 63, 32⟩),
     (tw 0x24 (4 * 2 ^ 212 + 8 * 2 ^ 196 + 3 * 2 ^ 180 + 12 * 2 ^ 164), .mzero hT ⟨4, 8, 3, 12⟩),
     (tw 0x25 (4 * 2 ^ 212 + 8 * 2 ^ 196 + 3 * 2 ^ 180 + 2 * 2 ^ 169 + 3 * 2 ^ 165 + 5 * 2 ^ 162 + 2 ^ 161 + 7 * 2 ^ 120 + 9 * 2 ^ 88 + 2 ^ 87 + 16 * 2 ^ 47 + 11 * 2 ^ 43 + 2 ^ 42),
       .mstore hT ⟨4, 8, 3, 2, 3, 5, true, false, 7, 9, true, 16, 11, true⟩),
     (tw 0x26 (4 * 2 ^ 212 + 8 * 2 ^ 196 + 3 * 2 ^ 180 + 2 * 2 ^ 169 + 6 * 2 ^ 149 + 2 ^ 148 + 2 ^ 147 + 0x3F800000 * 2 ^ 115 + 0x40000000 * 2 ^ 83),
       .mepi hT ⟨4, 8, 3, 2, 6, true, true, 0x3F800000, 0x40000000⟩)] = true := by decide +kernel

/-- R322-R329: the walker and sort classes. -/
theorem test_decode_walk_sort : tiles
    [(tw 0x40 (4 * 2 ^ 192 + 4096 * 2 ^ 179), .wload hT ⟨4, 4096, 0⟩),
     (tw 0x41 (1 * 2 ^ 220 + 2 * 2 ^ 180 + 64 * 2 ^ 159 + 128 * 2 ^ 138 + 5 * 2 ^ 132 + 6 * 2 ^ 120 + 2 * 2 ^ 118 + 7 * 2 ^ 97 + 8 * 2 ^ 65),
       .wrun hT ⟨1, 2, 64, 128, 5, 6, 2, 7, 8⟩),
     (tw 0x42 (5 * 2 ^ 192), .wstat hT ⟨5⟩),
     (tw 0x43 (2 * 2 ^ 230 + 2 ^ 229 + 3 * 2 ^ 213 + 4 * 2 ^ 173 + 5 * 2 ^ 133 + 6 * 2 ^ 93 + 7 * 2 ^ 53), .isect hT ⟨2, true, 3, 4, 5, 6, 7⟩),
     (tw 0x60 (5 * 2 ^ 228 + 2 ^ 227 + 3 * 2 ^ 225 + 6 * 2 ^ 201 + 1 * 2 ^ 161 + 2 * 2 ^ 121 + 3 * 2 ^ 81 + 4 * 2 ^ 41), .sort hT ⟨5, true, 3, 6, 1, 2, 3, 4⟩),
     (tw 0x61 (6 * 2 ^ 201 + 256 * 2 ^ 32 + 2 ^ 31 + 5 * 2 ^ 7), .topk hT ⟨0, false, 0, 6, 0, 0, 0, 0⟩ 256 true 5),
     (tw 0x62 (6 * 2 ^ 201 + 9 * 2 ^ 17), .merge hT ⟨0, false, 0, 6, 0, 0, 0, 0⟩ 9),
     (tw 0x63 (6 * 2 ^ 201 + 5 * 2 ^ 17), .select hT ⟨0, false, 0, 6, 0, 0, 0, 0⟩ 5),
     (tw 0x64 (6 * 2 ^ 201 + 9 * 2 ^ 17), .search hT ⟨0, false, 0, 6, 0, 0, 0, 0⟩ 9),
     (tw 0x65 (6 * 2 ^ 201 + 9 * 2 ^ 1), .uniq hT ⟨0, false, 0, 6, 0, 0, 0, 0⟩ 9)] = true := by decide +kernel

/-- R332, R339: the shutter and signal classes. -/
theorem test_decode_shutter_signal : tiles
    [(tw 0x80 (1 * 2 ^ 227 + 2 ^ 226), .uopen hT ⟨1, true⟩), (tw 0x81 0, .uclose hT), (tw 0x82 (3 * 2 ^ 212 + 2 ^ 211 + 5 * 2 ^ 171), .uquota hT ⟨3, true, 5⟩),
     (tw 0x83 (2 ^ 231 + 2 ^ 229), .uspill hT ⟨true, false, true⟩), (tw 0xA0 (8 * 2 ^ 184 + 5 * 2 ^ 120), .sigadd hT ⟨8, 5⟩),
     (tw 0xA1 (8 * 2 ^ 184 + 5 * 2 ^ 120), .sigset hT ⟨8, 5⟩), (tw 0xA2 (8 * 2 ^ 184 + 5 * 2 ^ 120 + 4 * 2 ^ 117 + 6 * 2 ^ 99), .sigwait hT ⟨8, 5, 4, 6⟩)] = true := by
  decide +kernel

/-- R122-R124: a non-zero must-be-zero bit, a TAG without T, an OPC that is not listed and illegal fields are refused. -/
theorem test_decode_tile_illegal : [(0x00 : Nat) * 2 ^ 248 + 2 ^ 232, 2 ^ 238, 0x09 * 2 ^ 248, 0x20 * 2 ^ 248, 0x07 * 2 ^ 248 + 1, 0xC0 * 2 ^ 248, 0xA0 * 2 ^ 248 + 2 ^ 99,
    0x06 * 2 ^ 248 + 4 * 2 ^ 184].all (fun w => (decodeTile (BitVec.ofNat 256 w)).isNone) = true := by decide +kernel

/-- R125, R126: walker words, the fields at [25:22], [21:18], [17:14] and [13:0]. -/
theorem test_decode_walker : ([(0x00, 0x3FF, .walkerLdw 1 2 0x3FF), (0x01, 7, .walkerLdh 1 2 7), (0x02, 7, .walkerLdb 1 2 7), (0x08, 3 * 2 ^ 14, .walkerAddw 1 2 3),
    (0x09, 3 * 2 ^ 14, .walkerSubw 1 2 3), (0x0A, 3 * 2 ^ 14, .walkerAndw 1 2 3), (0x0B, 31, .walkerShrw 1 2 31), (0x0C, 0, .walkerPopc 1 2),
    (0x0D, 3 * 2 ^ 14, .pfxp 1 2 3), (0x21, 3 * 2 ^ 14, .istep 1 2 3)] : List (Nat × Nat × Instr)).all (fun p =>
      decodeTableWord 32 (p.1 * 2 ^ 26 + 1 * 2 ^ 22 + 2 * 2 ^ 18 + p.2.1) == some p.2.2) = true ∧
    ([(0x10 * 2 ^ 26 + 2 * 2 ^ 18 + 5, .bnz 2 5), (0x11 * 2 ^ 26 + 2 * 2 ^ 18 + 5, .bz 2 5), (0x12 * 2 ^ 26 + 5, .walkerJmp 5),
    (0x18 * 2 ^ 26 + 2 * 2 ^ 18 + 3 * 2 ^ 14, .walkerEmit 2 3), (0x19 * 2 ^ 26 + 2 * 2 ^ 18 + 3 * 2 ^ 14, .emrow 2 3), (0x1A * 2 ^ 26, .nextt),
    (0x20 * 2 ^ 26, .waita), (0x3F * 2 ^ 26, .done)] : List (Nat × Instr)).all (fun p => decodeTableWord 32 p.1 == some p.2) = true := by decide +kernel

/-- R126: a field that an instruction does not use must be zero (ESTAT 2), and an opcode that is not listed is illegal (ESTAT 1). -/
theorem test_decode_walker_illegal : [(0x12 * 2 ^ 26 + 2 ^ 14, 2), (0x03 * 2 ^ 26, 1)].all (fun p =>
    match decodeWalker (BitVec.ofNat 32 p.1) with
    | .error k => k == p.2
    | .ok _ => false) = true := by
  decide +kernel

/-- R289-R292: launch packets; word k of a packet is bits [64k + 63 : 64k]. -/
theorem test_decode_packets :
    decodePacket (BitVec.ofNat 512 (0x01 * 2 ^ 56 + 2 ^ 55 + 200 * 2 ^ 40 + 2 ^ 64 * (5 * 2 ^ 48 + 64) + 2 ^ 128 * (1 + 2 * 2 ^ 16 + 3 * 2 ^ 32 + 4 * 2 ^ 48) +
      2 ^ 192 * (5 + 6 * 2 ^ 16 + 7 * 2 ^ 32 + 8 * 2 ^ 48))) = some (.invoke ⟨true, 200, 5, 64, 1, 2, 3, 4, 5, 6, 7, 8⟩) ∧
    decodePacket (BitVec.ofNat 512 (0x02 * 2 ^ 56 + 2 ^ 4 + 3 + 2 ^ 64 * (9 * 2 ^ 48 + 8) + 2 ^ 128 * (10 * 2 ^ 48 + 16) + 2 ^ 320 * 7 + 2 ^ 384 * 50)) =
      some (.barrier ⟨false, true, 3, ⟨9, 8⟩, ⟨10, 16⟩, ⟨0, 0⟩, ⟨0, 0⟩, 7, 50⟩) ∧
    decodePacket (BitVec.ofNat 512 (0x03 * 2 ^ 56 + 1 + 2 ^ 64 * (9 * 2 ^ 48 + 8) + 2 ^ 128 * 77)) = some (.signal ⟨false, true, 9, 8, 77⟩) ∧
    decodePacket (BitVec.ofNat 512 (0x04 * 2 ^ 56 + 2 ^ 64 * (9 * 2 ^ 48 + 8) + 2 ^ 128 * (10 * 2 ^ 48 + 16) + 2 ^ 192 * 77)) =
      some (.copyPacket ⟨false, 9, 8, 10, 16, 77⟩) ∧
    decodePacket (BitVec.ofNat 512 (0x05 * 2 ^ 56 + 2 ^ 55)) = some (.reset ⟨true⟩) ∧ decodePacket (BitVec.ofNat 512 (0x05 * 2 ^ 56 + 2 ^ 48)) = none ∧
    decodePacket (BitVec.ofNat 512 (0x02 * 2 ^ 56 + 1 + 2 ^ 64 * 4)) = none ∧ decodePacket (BitVec.ofNat 512 (0x06 * 2 ^ 56)) = none := by decide +kernel

/-- R106-R116, R132: the spec's two bundles worked to the bit. -/
theorem test_spec_words : Obligations.SpecWordsDecode := by unfold Obligations.SpecWordsDecode; decide +kernel

/-- Moves of the spec's listings, from their 30 bits: R162, R164, R188, R211, R235-R240, R245, R259, R275, R333, R371, R372. -/
theorem test_decode_moves : ([(0x00518004, .trig .mul 4, .srf 4), (0x0110700D, .port .vaa 3, .imm 0x0D), (0x00718004, .trig .lsu 4, .srf 4),
    (0x00C15000, .trig .str 2, .imm 0), (0x00B20004, .trig .sys 8, .srf 4), (0x0020AAE0, .crf 5, .win .sys 2 0), (0x00810014, .trig .syn 0, .srf 20),
    (0x00803023, .port .syn 1, .imm 0x23), (0x00814014, .trig .syn 2, .srf 20), (0x00826009, .trig .syn 11, .srf 9), (0x00830006, .trig .syn 16, .srf 6),
    (0x00835003, .trig .syn 18, .imm 3), (0x0160700E, .port .lac 3, .imm 0x0E), (0x0061F003, .trig .bru 7, .imm 3)] : List (Nat × Dst × Src)).all (fun p =>
      decodeMove true p.1 == some (some ⟨⟨false, 0⟩, p.2.1, p.2.2⟩)) = true ∧
    ([(0x01102301, .port .vaa 1, .vrf 1), (0x01116300, .trig .vaa 3, .vrf 0), (0x0161100A, .trig .lac 0, .bcast 10), (0x01604305, .port .lac 2, .vrf 5),
    (0x0161C300, .trig .lac 6, .vrf 0)] : List (Nat × Dst × Src)).all (fun p => decodeMove false p.1 == some (some ⟨⟨false, 0⟩, p.2.1, p.2.2⟩)) = true ∧
    decodeMove true 0x06611040 = some (some ⟨⟨false, 3⟩, .trig .bru 0, .imm 0x40⟩) := by decide +kernel

/-- The opcodes of a unit's operations run upward from each first value (R121). -/
def opRow (fu : FU) (first : Nat) (l : List Instr) : Bool := l.zipIdx.all (fun p => opOf fu (first + p.2) == some p.1)

/-- R121: ALA, ALB and MUL. -/
theorem test_opcodes_integer : [AluUnit.ala, .alb].all (fun u =>
    opRow u.fu 0x00 [.add u, .sub u, .addw u, .subw u, .and u, .or u, .xor u, .andn u, .shl u, .shr u, .sra u, .shlw u, .shrw u, .sraw u, .rol u, .ror u,
      .clz u, .ctz u, .popc u, .brev u, .bswap u] && (opOf u.fu 0x15).isNone && opRow u.fu 0x18 [.eq u, .ne u, .lt u, .ltu u, .le u, .leu u] &&
    opRow u.fu 0x20 [.min u, .minu u, .max u, .maxu u, .sel u] && opRow u.fu 0x28 [.sext8 u, .sext16 u, .sext32 u, .zext8 u, .zext16 u, .zext32 u] &&
    opRow u.fu 0x30 [.extr u, .ins u, .pass u]) = true ∧ opRow .mul 0 [.mull, .mulh, .mulhu, .mulw, .div, .divu, .rem, .remu] = true := by decide +kernel

/-- R121: BRU, LSU, SYN, CMD, UPD, SYS and STR. -/
theorem test_opcodes_scalar : (opRow .bru 0 [.jmp, .jmpr, .call, .ret, .loop, .trap, .halt, .nopw] && opRow .lsu 0 [.ldb, .ldbu, .ldh, .ldhu, .ldw, .ldwu, .ldd] &&
    opRow .lsu 8 [.stb, .sth, .stw, .std] && opRow .lsu 0x10 [.gldb, .gldh, .gldw, .gldd] && opRow .lsu 0x18 [.gstb, .gsth, .gstw, .gstd] &&
    opRow .lsu 0x20 [.pref] && opRow .syn 0 [.acq, .tacq, .rel] && opRow .syn 4 [.fence, .xfence] && opRow .syn 8 [.waitv, .waitc, .waitt, .ffr] &&
    opRow .syn 0x10 [.fladd, .flset, .flrd] && opRow .syn 0x18 [.sigrd, .sigwt] && opRow .cmd 0 [.push, .pusht, .qfree] &&
    opRow .upd 0 [.updOpen, .emit, .emitv, .flush, .close] && opRow .sys 0 [.csrr, .csrw, .csrs, .csrc] &&
    opRow .sys 8 [.alloc, .free, .retain, .hand, .hinfo, .hld] && opRow .sys 0x10 [.tret, .yield] && opRow .sys 0x18 [.dtrd] && opRow .sys 0x1F [.diag] &&
    opRow .str 0 [.sopen, .sstart, .spop, .sstat, .sclose]) = true := by decide +kernel

/-- R121: VAA, VAB, VXU, VLS, SFN and LAC. -/
theorem test_opcodes_vector : [VecUnit.vaa, .vab].all (fun u =>
    opRow u.fu 0 [.vadd u, .vsub u, .vmul u, .vfma u, .vfms u, .vfnma u, .vfmac u, .vmin u, .vmax u, .vabs u, .vneg u, .vcmp u, .vsel u, .vcvt u, .vrnd u] &&
    opRow u.fu 0x10 [.viadd u, .visub u, .vimul u, .vimulh u, .vimad u, .vimin u, .vimax u, .viabs u, .vicmp u] &&
    opRow u.fu 0x20 [.vand u, .vor u, .vxor u, .vshl u, .vshr u, .vsra u, .vrot u] && opRow u.fu 0x28 [.vdot4 u, .vdotb u]) = true ∧
    (opRow .vxu 0 [.rowget, .rowput, .colget, .colput, .vtrn] && opRow .vxu 8 [.vperm, .vbcast] && opRow .vxu 0x10 [.vred, .vscan, .vcomp, .vexp] &&
    opRow .vxu 0x18 [.vextr, .vins] && opRow .vxu 0x20 [.viota, .vmpop, .vshp] && opRow .vxu 0x28 [.vgthl, .vsctl] &&
    opRow .vls 0 [.vld, .vst, .vlds, .vsts, .vld2d, .vst2d] && opRow .vls 8 [.vgld, .vgst, .vpref] && opRow .sfn 0 [.rsqe, .rcpe, .exp2e, .log2e, .sqrt] &&
    opRow .lac 0 [.xwin, .xclr, .xadd, .xadd2, .xadd3, .xdot, .xsgn, .xrnd, .xget, .xflg, .xmov, .xneg]) = true ∧
    trigInstr ⟨0, .lac, 0x0A⟩ { Operands.zero with x := 2 ^ 6 } = some .xmovLoad := by decide +kernel


/-! ## Well-formedness: an ill-formed term for each check -/

/-- A bundle of scalar and vector moves, with guards always true. -/
def bun (l : List (Dst × Src)) (v : List (Dst × Src)) : Bundle :=
  let m : List (Dst × Src) → Nat → Option Move := fun l i => (l[i]?).map (fun p => ⟨⟨false, 0⟩, p.1, p.2⟩)
  { loopEnd := false, limm := none, s0 := m l 0, s1 := m l 1, s2 := m l 2, s3 := m l 3, s4 := m l 4, v0 := m v 0, v1 := m v 1, v2 := m v 2 }

/-- R111, R117-R120: a vector item in a scalar slot, a scalar item in a vector slot, a capability port fed from a scalar, a third SRF read, a
third SRF write, two writers of one port (a trigger counts as port A), p0 as a destination, a port and a trigger that
are not listed, an immediate in a vector slot, the guard of an empty slot. -/
theorem test_wf_moves : (([bun [(.vrf 1, .vrf 2)] [], bun [] [(.srf 1, .srf 2)], bun [(.port .lsu 5, .srf 1)] [], bun [(.srf 1, .srf 2), (.srf 3, .srf 4), (.prf 1, .srf 5)] [],
    bun [(.srf 1, .imm 1), (.srf 2, .imm 1), (.srf 3, .imm 1)] [], bun [(.port .ala 0, .imm 1), (.trig .ala 0, .imm 2)] [],
    bun [(.prf 0, .imm 1)] [], bun [(.port .mul 4, .imm 1)] [], bun [(.trig .mul 8, .imm 1)] [], bun [] [(.vrf 1, .imm 1)], bun [(.srf 1, .bcast 2)] [],
    bun [(.srf 1, .limm)] [], bun [(.srf 1, .win .mul 1 0)] []].all (fun b => !(Instr.move b).wf)) &&
    !(Instr.move { bun [] [] with s0 := some ⟨⟨true, 0⟩, .srf 1, .srf 2⟩ }).wf && !(Instr.move { bun [(.trig .bru 0, .imm 1)] [] with loopEnd := true }).wf &&
    !(Instr.move { bun [(.srf 1, .imm 1), (.srf 2, .imm 1), (.prf 1, .imm 1), (.prf 2, .imm 1)] [] with limm := some 5 }).wf &&
    (Instr.move (bun [(.srf 1, .srf 2), (.srf 2, .srf 1), (.port .lsu 5, .crf 3), (.crf 1, .win .sys 2 0)] [(.vrf 1, .vrf 2), (.mrf 1, .vrf 3), (.port .vaa 1, .vrf 4)])).wf) = true := by
  decide +kernel

/-- Four VRF reads cannot stand in the three vector slots, so the limit of R120 on them binds no bundle; three are allowed. -/
theorem test_wf_vrf_reads : (Instr.move (bun [] [(.port .vaa 0, .vrf 1), (.port .vaa 1, .vrf 2), (.port .vaa 2, .vrf 3)])).wf = true := by decide +kernel

/-- R124, R301-R308: TAG without T; offsets that are no multiple of what their descriptions require; types and codes that are not listed. -/
theorem test_wf_copy : ([.copy { hT with t := false } ⟨0, 0, 0, 0, 0, 0⟩, .copyx hT ⟨0, 0, 0, 0, 0, 2, 0, false, false⟩, .accw hT ⟨0, 0, 0, 0, 0, 0, 0, 0, 0, false⟩,
    .accw hT ⟨0, 0, 0, 0, 0, 0, 2, 3, 0, false⟩, .accw hT ⟨2, 0, 0, 0, 0, 0, 2, 0, 0, false⟩, .accw hT ⟨0, 2, 0, 0, 0, 0, 2, 0, 0, false⟩, .accw hT ⟨0, 0, 2, 0, 0, 0, 2, 0, 0, false⟩,
    .accw hT ⟨0, 0, 0, 0, 2, 0, 2, 0, 0, false⟩, .accw hT ⟨0, 0, 0, 0, 0, 2, 2, 0, 0, false⟩, .atom hT ⟨0, 6, false, 0, false, 0, 0⟩, .atom hT ⟨0, 3, true, 0, false, 0, 0⟩,
    .atom hT ⟨4, 3, false, 0, false, 0, 0⟩, .atom hT ⟨4, 0, true, 0, false, 0, 0⟩, .atom hT ⟨2, 0, false, 0, false, 0, 0⟩, .chain hT ⟨16, 0, 0, 0, 0, 0, false, false, 16⟩,
    .chain hT ⟨0, 0, 0, 4, 0, 0, false, false, 16⟩, .chain hT ⟨0, 0, 0, 0, 4, 0, false, false, 16⟩, .sigop hT ⟨4, false, 0⟩, .coll hT ⟨0, 0, 0, 0, 17, false, 0, 0, 0, 0, false⟩,
    .coll hT ⟨0, 0, 0, 0, 0, true, 0, 0, 0, 0, false⟩, .coll hT ⟨0, 0, 0, 0, 0, true, 2, 3, 0, 0, false⟩, .coll hT ⟨1, 0, 0, 0, 0, true, 2, 0, 0, 0, false⟩] : List Instr).all (fun i => !i.wf) =
    true := by decide +kernel

/-- R313-R320: the matrix class. -/
theorem test_wf_matrix : ([.mlease hT ⟨0⟩, .mlease hT ⟨65⟩, .mloadw hT ⟨32, 0, 0, 0, .buf 0 0⟩, .mloada hT ⟨0, 0, 0, 32, .buf 0 0⟩, .mloadw hT ⟨0, 0, 32, 0, .shared 0 0 0 0 1⟩,
    .mloadw hT ⟨0, 0, 0, 0, .shared 32 0 0 0 1⟩, .mloadw hT ⟨0, 0, 0, 0, .shared 0 32 0 0 1⟩, .mloadw hT ⟨0, 0, 0, 0, .shared 0 0 32 0 1⟩, .mloadw hT ⟨0, 0, 0, 0, .shared 0 0 0 0 0⟩,
    .mmul hT ⟨15, 0, 0, 0, 0, 0, 0, 0, 0, 0, 0⟩, .mmul hT ⟨0, 5, 0, 0, 0, 0, 0, 0, 0, 0, 0⟩, .mzero hT ⟨2, 0, 0, 0⟩, .mzero hT ⟨0, 2, 0, 0⟩, .mzero hT ⟨0, 0, 0, 2⟩,
    .mstore hT ⟨0, 0, 0, 0, 6, 0, false, false, 0, 0, false, 0, 0, false⟩, .mstore hT ⟨0, 0, 0, 0, 0, 0, false, false, 0, 0, false, 4, 0, false⟩,
    .mepi hT ⟨0, 0, 0, 0, 0, false, true, 0x40000000, 0x3F800000⟩, .mepi hT ⟨0, 0, 0, 0, 0, false, false, 0x7FC00000, 0⟩, .mepi hT ⟨0, 0, 0, 0, 0, false, false, 0, 0x7FC00000⟩] :
    List Instr).all (fun i => !i.wf) = true := by decide +kernel

/-- R322-R329, R332, R339, R291, R292: the walker, sort, shutter and signal classes, and packets. -/
theorem test_wf_rest : ([.wload hT ⟨2, 0, 0⟩, .wload hT ⟨0, 4096, 1⟩, .wrun hT ⟨0, 0, 32, 0, 0, 0, 0, 0, 0⟩, .wrun hT ⟨0, 0, 0, 32, 0, 0, 0, 0, 0⟩, .wrun hT ⟨0, 0, 0, 0, 0, 0, 3, 0, 0⟩,
    .isect hT ⟨3, false, 0, 0, 0, 0, 0⟩, .sort hT ⟨6, false, 0, 0, 0, 0, 0, 0⟩, .topk hT ⟨0, false, 0, 9, 0, 0, 0, 0⟩ 0 false 0, .topk hT ⟨0, false, 0, 9, 0, 0, 0, 0⟩ 257 false 0,
    .topk hT ⟨0, false, 1, 9, 0, 0, 0, 0⟩ 1 false 0, .topk hT ⟨0, false, 0, 9, 0, 0, 0, 0⟩ 1 true 9, .select hT ⟨0, false, 0, 9, 0, 0, 0, 0⟩ 9, .select hT ⟨0, false, 2, 9, 0, 0, 0, 0⟩ 0,
    .uniq hT ⟨0, false, 1, 9, 0, 0, 0, 0⟩ 0, .uopen hT ⟨31, false⟩, .sigadd hT ⟨4, 0⟩, .sigset hT ⟨4, 0⟩, .sigwait hT ⟨4, 0, 0, 0⟩, .sigwait hT ⟨0, 0, 6, 0⟩,
    .barrier ⟨false, false, 1, ⟨0, 4⟩, ⟨0, 0⟩, ⟨0, 0⟩, ⟨0, 0⟩, 0, 0⟩, .barrier ⟨false, false, 8, ⟨0, 4⟩, ⟨0, 0⟩, ⟨0, 0⟩, ⟨0, 4⟩, 0, 0⟩,
    .barrier ⟨false, false, 0, ⟨0, 0⟩, ⟨0, 0⟩, ⟨0, 0⟩, ⟨0, 0⟩, 2 ^ 31 - 4, 0⟩, .signal ⟨false, false, 0, 4, 0⟩] : List Instr).all (fun i => !i.wf) = true := by decide +kernel

/-! ## Small states -/

/-- A state whose core 0, of a VEC chiplet, holds a context and runs, with an operation's turn whose bundle has passed its checks. -/
def st (x : Ctx) (o : Operands) : State :=
  { State.reset with cores := [(0, { Core.zero with ctx := x, mode := .run })], turn := { Turn.zero with ops := o, checked := true }, agenda := [] }

/-- The same with the checks still to make. -/
def stc (x : Ctx) (o : Operands) : State := { st x o with turn := { Turn.zero with ops := o } }

/-- The same with the core replaced. -/
def stk (c : Core) (o : Operands) : State := { st Ctx.zero o with cores := [(0, c)] }

/-- Operands of a unit. -/
def ab (a b : Word) : Operands := { Operands.zero with a := a, b := b }

/-- A strand that can take a trap: TVEC 5. -/
def trapper : Ctx := { Ctx.zero with tvec := 5 }

/-- A handle of buffer 1, generation 1, all rights, whole view (R248). -/
def h1 : Handle := BitVec.ofNat 64 (1 * 2 ^ 40 + 1 * 2 ^ 32 + 0xF * 2 ^ 28)

/-- Buffer 1: 4096 bytes, allocated, held by RCB 7 and no other. -/
def buf1 (refs : BitVec 32) : Buf := { Buf.zero with state := 1, gen := 1, size := 4096, refs := refs, orcb := 7, own := 0xFFFF }

/-- What a next state gives under a reading; a stop gives the default. -/
def after (i : Instr) (s : State) : State :=
  match exec i s with
  | .next t => t
  | _ => s

/-- The words that the last operation put in flight writes. -/
def flew (i : Instr) (s : State) : List (Nat × ResVal) := ((after i s).core 0).inflight.flatMap (fun f => f.writes)

/-! ## Witnesses: integer, branch, system and trap operations -/

/-- An operation in flight that writes D of ALA. -/
def fl1 : InFlight := { fu := .ala, due := 0, seq := 3, writes := [(0, .s 9)], raised := 0, enabled := 0, lowest := 0, bidx := 0, slot := 0, macC := false }

theorem witness_ResultWriteShiftsOneWindow : let s := { stk { Core.zero with inflight := [fl1] } Operands.zero with turn := { Turn.zero with item := 3 } }
    (s.core s.turn.core).inflight.find? (fun f => f.seq == s.turn.item) = some fl1 ∧ (fl1.writes.map (fun p => p.1)).Nodup ∧ fl1.raised = 0 ∧
    fl1.macC = false := by
  decide +kernel

/-- A VFMAC of VAA in flight that raised inexact, which traps. -/
def fl2 : InFlight := { fl1 with fu := .vaa, writes := [(0, .v 9)], raised := 1, enabled := 1, macC := true }

/-- An ARITH trap that an operation of a number waits for. -/
def arithOf (seq : Nat) : Arith := { fu := 10, bidx := 3, slot := 0, raised := 1, lowest := 0, seq := seq }

/-- A core with it in flight. -/
def raising (a : Option Arith) : Core := { Core.zero with inflight := [fl2], ctx := { Ctx.zero with arith := a } }

theorem witness_RaisedConditions : (raising none).inflight.find? (fun f => f.seq == 3) = some fl2 ∧ fl2.raised &&& fl2.enabled ≠ 0 ∧ fl2.macC = true ∧
    fl2.fu ∉ (raising none).movedC ∧ fl2.fu ∈ { raising none with movedC := [.vaa] }.movedC ∧ (raising none).ctx.arith = none ∧
    (raising (some (arithOf 2))).ctx.arith = some (arithOf 2) ∧ (arithOf 2).seq < fl2.seq ∧ fl2.seq ≤ (arithOf 3).seq ∧
    (({ fl2 with writes := [(2, .k 7)] } : InFlight).writes.map (fun p => p.1)).Nodup := by decide +kernel

theorem witness_BranchResults : ((st Ctx.zero (ab 0xFFFF 0)).core 0).mode = .run ∧ (ab 0xFFFF 0).a.toNat % 65536 ≠ 0 ∧ (ab 0x10000 0).a.toNat % 65536 = 0 ∧
    ({ ab 1 1 with c := 1 <<< 63 }).c.getLsbD 63 = true ∧ (ab 1 1).c.getLsbD 63 = false ∧ Ctx.zero.rs = 0 ∧ { Ctx.zero with vconf := 8 + 4 * 2 ^ 15 }.rs ≠ 0 ∧
    ((stk { Core.zero with mode := .pause } Operands.zero).core 0).mode = .pause := by decide +kernel

theorem witness_SystemOperations : rwMask 0x020 = some 0x1FFF ∧ rwMask 0x000 = some 0x1FFF ∧ readOnly 0x054 ∧ readOnly 0xFFF ∧ (3 < 4 ∧ 0x063 = 0x060 + 3) ∧
    (ab 26 0).a.toNat < 27 ∧ 27 ≤ (ab 27 0).a.toNat ∧ (st Ctx.zero (ab 26 0)).turn.checked = true := by
  unfold readOnly; decide +kernel

/-- An ALLOC held in issue, with its decision. -/
def held (left : Nat) (res : Option (Option (Handle × Word × Word))) : Hold :=
  { bundle := bun [] [], bidx := 0, born := 0, writes := [], trigs := [], alloc := some { left := left, slot := 0, a := 1, b := 0, res := res }, wait := none,
    bids := [] }

/-- A core with a hold. -/
def holder (h : Hold) : Core := { Core.zero with mode := .hold, hold := some h }

/-- A hold of a bundle that writes a register and triggers operations that act now, later and late, with a wait beside its ALLOC. -/
def fullHold : Hold :=
  { held 0 (some (some (h1, 0, 1))) with
    writes := [⟨.srf 1, 0, .s 5⟩, ⟨.trig .ala 0, 0, .s 7⟩, ⟨.trig .sys 1, 0, .s 1⟩, ⟨.trig .str 2, 0, .s 1⟩]
    trigs := [⟨0, .ala, 0⟩, ⟨1, .sys, 1⟩, ⟨2, .str, 2⟩]
    wait := some { cond := .tags 0 true, condWord := 0, timeout := 0, startTick := 0, slot := 0 } }

/-- An allocation of A bytes with attributes B under a root with a budget. -/
def allocAt (a b : Word) : State := { stk (holder (held 1 none)) (ab a b) with rcbs := [(0, { Rcb.zero with budget := 524288 })] }

/-- What stands in the way of an allocation. -/
def reasonAt (a b : Word) : Nat := (allocAt a b).allocReason a b ((allocAt a b).ownerRcb ((allocAt a b).rcbOf 0) b) 0 (some 0)

theorem witness_AllocHoldAndResults : reasonAt 0 0 ≠ 0 ∧ reasonAt 1 0 = 0 ∧ (allocAt 1 0).freshIds = true ∧
    ((holder (held 0 (some none))).hold.bind (fun h => h.alloc)).map (fun a => decide (a.left = 0) && a.res == some none) = some true ∧
    ((holder (held 0 (some (some (h1, 0, 1))))).hold.bind (fun h => h.alloc)).map (fun a => decide (a.left = 0) && a.res == some (some (h1, 0, 1))) = some true ∧
    (held 0 none).wait.isNone = true ∧ (fullHold.writes.map writePlace).Nodup ∧ fullHold.wait.isSome = true ∧
    fullHold.trigs.map actTime = [.now 2, .later 2, .late] ∧ opOf .ala 0 ≠ none := by decide +kernel

/-- A state with buffer 1 and its handle in H. -/
def withBuf (refs : BitVec 32) : State := { st Ctx.zero { Operands.zero with h := h1 } with bufs := [(1, buf1 refs)] }

theorem witness_BufferReferences : (withBuf 2).turn.ops.h.toNat / 2 ^ 40 < 0xFFFC00 ∧ ((withBuf 2).buf 1).state = 1 ∧ 1 < ((withBuf 2).buf 1).refs.toNat ∧
    ((withBuf 1).buf 1).refs.toNat ≤ 1 ∧ ((withBuf 0).buf 1).refs.toNat ≤ 1 ∧ (withBuf 2).turn.checked = true := by decide +kernel

theorem witness_FailedCheck : (stc Ctx.zero Operands.zero).turn.checked = false ∧
    (match checkOp .trap (stc Ctx.zero Operands.zero) with | .fault _ => true | _ => false) = true ∧
    (match checkOp .stw (stc trapper (ab 1 0)) with | .trap _ => true | _ => false) = true ∧
    (match checkOp .emit { stc { Ctx.zero with upd := ⟨some (0, 0), List.replicate 64 []⟩ } Operands.zero with regions := [] } with | .ok => false | _ => true) = true := by
  decide +kernel

/-- A core whose trap entry is due, and one whose return is. -/
def saving (w : Stop) (x : Ctx) : State := stk { Core.zero with mode := .save 0 w, ctx := x } Operands.zero

/-- A software trap. -/
def trap1 : TrapInfo := { cause := 1, fu := 6, info0 := 0, info1 := 7, info2 := 0, ret := 1 }

theorem witness_TrapEntryAndReturn : ((st trapper Operands.zero).core 0).ctx.inTrap = false ∧ ((st trapper Operands.zero).core 0).ctx.tvec ≠ 0 ∧
    ((st Ctx.zero Operands.zero).core 0).ctx.tvec = 0 ∧ { Ctx.zero with inTrap := true }.inTrap = true ∧ ((saving (.trap trap1) trapper).core 0).mode = .save 0 (.trap trap1) ∧
    ((saving .tret (trapper.enterTrap trap1)).core 0).mode = .save 0 .tret ∧
    ((saving .tret (trapper.enterTrap trap1)).core 0).ctx.trapSlot = (trapper.enterTrap trap1).trapSlot := by decide +kernel

/-- A slice of partition 1 on core 0 that ends at clock 5, and partition 0, which shares the core, with a node ready for its class or not. -/
def sliced (waits cutting : Bool) : State :=
  let m : Masks := { Masks.zero with core := 1 }
  { st { Ctx.zero with part := 1 } Operands.zero with
    slices := [(0, ⟨1, 5, cutting⟩)], parts := [(0, { Part.zero 0 with masks := m }), (1, { Part.zero 1 with masks := m })],
    ready := if waits then [{ Ready.zero with node := 9, cls := 2 }] else [] }

theorem witness_HaltAndYieldEndTheTurn : (st Ctx.zero Operands.zero).slices.find 0 = none ∧
    (sliced true false).slices.find 0 = some ⟨1, 5, false⟩ ∧ (sliced true false).partCutting 1 = false ∧ (sliced true false).now < 5 ∧
    (sliced true false).coreWaiters 1 0 = true ∧ (sliced false false).coreWaiters 1 0 = false ∧ (sliced true true).partCutting 1 = true ∧
    (sliced true true).slices.find 0 = some ⟨1, 5, true⟩ ∧ (5 : Nat) ≤ { sliced true false with now := 5 }.now ∧ (1 : Nat) ≠ 0 ∧
    (sliced true false).enteringTrap 0 = false ∧
    ({ sliced true false with agenda := [.run { Turn.zero with core := 0 } .trap] }).enteringTrap 0 = true := by decide +kernel

/-- A strand fault of crew 5, node 9, RCB 3. -/
def faulted : State :=
  let f := strandFault 0x30 0 0 0 0
  { stk { Core.zero with mode := .drain (.fault f), ctx := { Ctx.zero with crew := 5 } } Operands.zero with
    turn := { Turn.zero with crew := 5, fault := some f }
    crews := [(5, { Crew.zero with node := 9, rcb := 3, cores := [0] })], nodes := [(9, { Node.zero with rcb := 3, st := .running })],
    rcbs := [(1, { Rcb.zero with level := 1 }), (2, { Rcb.zero with level := 2, parent := 1 }), (3, { Rcb.zero with level := 3, parent := 2, inh := 4 })] }

theorem witness_FaultIsRecorded : faulted.turn.fault = some (strandFault 0x30 0 0 0 0) ∧ (strandFault 0x30 0 0 0 0).src = 0 ∧ faulted.turn.crew ≠ 0 ∧
    (faulted.crew 5).rcb ≠ 0 ∧ (faulted.rcb (faulted.faultDomain (faulted.node 9).rcb)).policy = 0 ∧ (faulted.ring (faulted.faultDomain 3)).recs.length < 64 ∧
    (faulted.core 0).mode = .drain (.fault (strandFault 0x30 0 0 0 0)) ∧ (faulted.node 9).st ≠ .faulted ∧ (faulted.crew 5).st ≠ .out ∧
    faulted.crews.find 6 = none := by decide +kernel

/-- A full ring, and a domain whose policy is as given. -/
def ringFull : State := { faulted with rings := [(2, { recs := List.replicate 64 0, head := 0 })] }

/-- The same fault where the job's policy ends the graph or the job, with a second strand of the crew that drains for a fault of its own. -/
def ending (policy : BitVec 2) : State :=
  let f := strandFault 0x30 0 0 0 0
  let c : Core := { Core.zero with mode := .drain (.fault f), ctx := { Ctx.zero with crew := 5 } }
  { faulted with
    cores := [(0, c), (1, c)], crews := [(5, { Crew.zero with node := 9, rcb := 3, cores := [0, 1] })],
    rcbs := [(1, { Rcb.zero with level := 1 }), (2, { Rcb.zero with level := 2, parent := 1, policy := policy }), (3, { Rcb.zero with level := 3, parent := 2, inh := 4 })],
    insts := [(3, { Inst.zero with nodes := [9] })] }

/-- A fault at dispatch of node 9. -/
def atDispatch : State := { faulted with turn := { Turn.zero with item := 9, fault := some { strandFault 0x15 0 0 0 0 with src := 2 } } }

/-- A fault of the boot-mailbox strand of crew 6. -/
def mailFault (full : Bool) : State :=
  { faulted with
    crews := [(6, { Crew.zero with cores := [0] })], turn := { Turn.zero with crew := 6, fault := some (strandFault 0x30 0 0 0 0) }
    rings := if full then [(0, { recs := List.replicate 64 0, head := 0 })] else [] }

theorem witness_FaultPolicies : 64 ≤ (ringFull.ring (ringFull.faultDomain 3)).recs.length ∧ (ringFull.rcb (ringFull.faultDomain 3)).policy = 0 ∧
    (∀ p, p = 1 ∨ p = 2 → ((ending p).rcb ((ending p).faultDomain ((ending p).node 9).rcb)).policy = p ∧ ((ending p).insts.find 3).isSome = true ∧
      ((ending p).rcb ((ending p).faultDomain 3)).level ≠ 1) ∧
    ((ending 1).inst 3).nodes = [9] ∧ (ending 1).crewsOf 9 = [5] ∧ ((ending 1).core 1).mode = .drain (.fault (strandFault 0x30 0 0 0 0)) ∧
    ((ending 1).core 1).ctx.crew = 5 ∧ ((ending 1).ring 2).recs.length + 1 + ((ending 1).crew 5).cores.length ≤ 64 ∧
    atDispatch.turn.fault.map (fun f => f.src) = some 2 ∧ (atDispatch.nodes.find 9).map (fun x => decide (x.st = .running)) = some true ∧
    ({ atDispatch with nodes := [] }).nodes.find 9 = none ∧
    ((mailFault false).crews.find 6).map (fun c => c.rcb) = some 0 ∧ ((mailFault false).ring 0).recs.length < 64 ∧
    64 ≤ ((mailFault true).ring 0).recs.length := by
  have h : ∀ p : BitVec 2, p = 1 ∨ p = 2 → ((ending p).rcb ((ending p).faultDomain ((ending p).node 9).rcb)).policy = p ∧
      ((ending p).insts.find 3).isSome = true ∧ ((ending p).rcb ((ending p).faultDomain 3)).level ≠ 1 := by
    rintro p (rfl | rfl) <;> decide +kernel
  exact ⟨by decide +kernel, by decide +kernel, h, by decide +kernel⟩

/-! ## Witnesses: vector operations and the memories of a core -/

/-- Operands of a vector operation: form word and VSHAPE. -/
def vo (f : Word) (shape : BitVec 13) : Operands := { Operands.zero with f := f, vshape := shape }

/-- The full FP32 tile, 8 rows by 32 columns; FP32 is TYPE 0xD. -/
def fp32Tile : BitVec 13 := 7 + 31 * 64

theorem witness_VectorFloatingResults : (vecIn (vo 0x0D fp32Tile)).form.type = .fp .fp32 ∧ FFmt.fp32 ≠ .e2m1 ∧ (vecIn (vo 0x0D fp32Tile)).n * 32 = 8192 ∧
    (vecIn (vo 0x0D fp32Tile)).form.type ≠ .bfp ∧ checkOp (.vcvt .vaa) (stc Ctx.zero (vo 0x2D0D fp32Tile)) = .ok ∧
    checkOp (.vdotb .vab) (stc Ctx.zero (vo 0x0C fp32Tile)) = .ok := by decide +kernel

/-- ElementResultsAndConversions: a value that rounds, one past the largest finite magnitude and a tiny one; the formats' special values; a dithered
element; integers and numbers that each case of the conversions takes; blocks of each kind, with the scale that its largest magnitude gives. -/
theorem witness_ElementResultsAndConversions :
    (2 ^ 10 * 2 ^ (0 : Nat) ≤ 1025 ∧ 1025 < 2 * 2 ^ 10 ∧ (1025 : Nat) * 2 ^ ((-4 : Int) - 0).toNat < 2 * 2 ^ 10) ∧
    (FFmt.fp16.maxSig * 2 ^ (FFmt.fp16.emax - 10 - 6).toNat < (roundTo .rne false 2047 6 6).1 * 2 ^ ((6 : Int) - (FFmt.fp16.emax - 10)).toNat) ∧
    ((roundTo .rne false 1025 (-40) (-40)).1 * 2 ^ ((-40 : Int) - FFmt.fp16.emin).toNat < 2 ^ (FFmt.fp16.emin - (-40)).toNat) ∧
    ((FFmt.fp16.decode 0x7E00).isNaN = true ∧ (FFmt.fp16.decode 0x7D00).isSig = true ∧ FFmt.fp16.decode 0xFC00 = .inf true ∧
      (FFmt.fp16.decode 0).eq (FFmt.fp16.decode 0x8000) = true ∧ FFmt.fp16.decode 0x3E00 = .fin false 1536 (-10)) ∧
    ((0 : Int) < 1 ∧ ditherNum 1 0 < 64 ∧ (5 : Nat) < 6 ∧ (6 : Nat) ≤ 7) ∧
    (readInt true 8 0x80 = -128 ∧ FFmt.fp32.decode 0x43000000 = .fin false (2 ^ 23) (-16) ∧ intHi true 8 < 128 ∧ -200 < intLo true 8) ∧
    (0x070000 / 2 ^ 16 % 8 = 7 ∧ 0x080000 / 2 ^ 19 % 2 = 1 ∧ sextNat (2 ^ 24 / 2 ^ (24 + 0 * 2) % 2 ^ 2) 2 = 1) ∧
    ((List.replicate 32 (Machine.Num.fin false 0 0)).length = 32 ∧ (Machine.Num.inf true) ∈ Machine.Num.inf true :: List.replicate 31 (.nan true) ∧
      ((3 : Nat) * 2 ^ 3 * 2 ^ (0 - 1 : Int).toNat ≥ (2 ^ 3 - 1) * 2 ^ (1 - 0 : Int).toNat ∧ (3 : Nat) * 2 ^ 3 < 2 * ((2 ^ 3 - 1) * 2)) ∧
      256 * (3 * 2 ^ 3) ≤ (256 + 183) * (7 * 2) ∧ (255 + 183) * (7 * 2) < 256 * (3 * 2 ^ 3)) ∧
    ([0x2D0D, 0xD058].all (fun f => checkOp (.vcvt .vaa) (stc Ctx.zero (vo f (31 * 64))) == .ok) = true ∧
      [0xD05F, 0xF00D].all (fun f => checkOp (.vcvt .vaa) (stc Ctx.zero (vo f (31 * 64))) == .ok) = true) := by decide +kernel

/-- SpecialFunctionResults: RSQE's worked operand 3.0, whose E is 1 and k 32; the operands of each row; EXP2E of -1.5; the root of 3.0. -/
theorem witness_SpecialFunctionResults : FFmt.fp32.decode 0x40400000 = .fin false (3 * 2 ^ 22) (-22) ∧
    ((64 + 32) * 2 ^ (1 - (-22) : Int).toNat ≤ 3 * 2 ^ 22 * 64 * 2 ^ (-22 - 1 : Int).toNat ∧
      3 * 2 ^ 22 * 64 * 2 ^ (-22 - 1 : Int).toNat < (65 + 32) * 2 ^ (1 - (-22) : Int).toNat) ∧
    (rsqeT 1 32 = 2359 ∧ (FFmt.fp32.round .rne false false 2359 (-12)).1 = (estElem .rsqe .fp32 0x40400000).1) ∧
    FFmt.fp32.decode 0xBFC00000 = .fin true (3 * 2 ^ 22) (-23) ∧
    ((64 * (-2) + 32 : Int) * 2 ^ (-(-23 + 6) : Int).toNat ≤ -1 * (3 * 2 ^ 22) ∧ (-1 * (3 * 2 ^ 22) : Int) < (64 * (-2) + 32 + 1) * 2 ^ (-(-23 + 6) : Int).toNat) ∧
    (FFmt.fp32.decode 0x80000000 = .fin true 0 (-149) ∧ FFmt.fp32.decode 0xFF800000 = .inf true ∧ (FFmt.fp32.decode 0x7FC00000).isNaN = true) ∧
    ((2 ^ 23) ^ 2 * 2 ^ (2 * (-23) - (-22) : Int).toNat ≤ 3 * 2 ^ 22 * 2 ^ (-22 - 2 * (-23) : Int).toNat ∧
      3 * 2 ^ 22 * 2 ^ (-22 - 2 * (-23) : Int).toNat < (2 * 2 ^ 23) ^ 2 * 2 ^ (2 * (-23) - (-22) : Int).toNat) := by decide +kernel

theorem witness_VectorIntegerResults : (vecIn (vo 0x00 fp32Tile)).form.type = .int true 8 ∧ (vecIn (vo 0x00 fp32Tile)).n * 32 = 8192 ∧
    (vecIn (vo 0x00 (63 + 15 * 64))).n * 8 = 8192 := by decide +kernel

theorem witness_RoundingIsCorrect : (0 : Int) < 1 ∧ 0x3F800000 < 2 ^ FFmt.fp32.width ∧ FFmt.fp32.decode 0x3F800000 = .fin false (2 ^ 23) (-23) ∧
    (roundTo .rne false 1 0 1).1 = 0 ∧ (roundTo .rne false 3 0 1).1 = 2 ∧ (roundTo .rmm false 1 0 1).1 = 1 := by decide +kernel

theorem witness_VectorExchangeMoves : (vecIn (vo 0x0D fp32Tile)).form.type ≠ .bfp ∧ (vecIn (vo 0x0D fp32Tile)).form.type ≠ .fp .e2m1 ∧
    (vecIn (vo 0x0D fp32Tile)).n * (vecIn (vo 0x0D fp32Tile)).w = 8192 ∧ (vecIn (vo 0x00 fp32Tile)).form.type = .int true 8 ∧
    shapeN ((7 + 31 * 64 : Word).setWidth 13) * 32 = 8192 ∧ checkOp .vshp (stc Ctx.zero { vo 0x0D fp32Tile with b := 7 + 31 * 64 }) = .ok ∧
    checkOp .vtrn (stc Ctx.zero (vo 0x0D (15 + 15 * 64))) = .ok := by decide +kernel

theorem witness_VectorReductionsAndFunctions : checkOp .vred (stc Ctx.zero (vo 0x0D fp32Tile)) = .ok ∧
    checkOp .vscan (stc Ctx.zero { vo 0x00 fp32Tile with b := 4 + 1 }) = .ok ∧ (vecIn (vo 0x00 fp32Tile)).form.type = .int true 8 ∧
    (vecIn (vo 0x0D fp32Tile)).form.type = .fp .fp32 ∧ (4 + 1 : Word).toNat % 4 = 1 ∧ (4 + 1 : Word).toNat / 4 % 4 = 1 ∧ (1 : Nat) < [5, 7, 9].length ∧
    (vecIn (vo 0x00 fp32Tile)).rows = 8 ∧ (vecIn (vo 0x00 fp32Tile)).form.sat = false ∧
    (vo 0x00 fp32Tile).b.toNat % 16 = 0 ∧ FFmt.fp32.decode 0x80000000 = .fin true 0 (-149) ∧ (vecIn (vo 0x0D fp32Tile)).n * FFmt.fp32.width ≤ 8192 := by decide +kernel

theorem witness_LongAccumulators : (vecIn (vo 0x0E (0 + 63 * 64))).n = 64 ∧ checkOp .xadd (stc Ctx.zero (vo 0x0E (0 + 63 * 64))) = .ok ∧
    checkOp .xrnd (stc Ctx.zero (vo 0x0E (0 + 63 * 64))) = .ok ∧ checkOp .xdot (stc Ctx.zero (vo 0x0E (0 + 63 * 64))) = .ok := by decide +kernel

/-- A state with crew 0 owning a segment of shared scratch of 64 KiB. -/
def scr (x : Ctx) (o : Operands) : State := { stc x o with crews := [(0, { Crew.zero with scrLen := 65536 })] }

theorem witness_ScratchLoadsAndStores : Memory.wf (scr Ctx.zero (ab 8 5)).mem = true ∧ (8 : Nat) / 2 ^ 28 ≠ 1 ∧
    [(Instr.ldd, 8), (.stb, 1), (.std, 8)].all (fun p => checkOp p.1 (scr Ctx.zero (ab 0x3FFFF8 5)) == .ok) = true ∧
    [Instr.vld, .vst].all (fun i => checkOp i (scr Ctx.zero (ab 0x0FFC00 5)) == .ok) = true ∧
    2 ≤ (0x20000000 : Nat) / 2 ^ 28 ∧ (scr Ctx.zero Operands.zero).crew 0 = { Crew.zero with scrLen := 65536 } ∧ (65536 : Nat) < 65536 + 1 ∧
    trapper.inTrap = false ∧ trapper.tvec ≠ 0 := by decide +kernel

/-- A granule of a core's own scratch that is poisoned. -/
def scrBad (x : Ctx) (o : Operands) : State := { scr x o with poison := (scr x o).scratchAddrs 0 (o.a.toNat % 2 ^ 32) 1 |>.map (fun a => a / 64) }

/-- The cases of ScratchFaults: a device window, an end passed in shared scratch, an odd address in a strand that traps, inside its handler, and
one without a vector; a poisoned byte; a masked VST whose form has no element; and an access to the staging area of another partition's array. -/
theorem witness_ScratchFaults :
    ((0x40000000 : Nat) / 2 ^ 28 = 4 ∧ (0x1000FFFD : Nat) % 2 ^ 28 + 4 = 65537 ∧ ((scr Ctx.zero Operands.zero).scratchArea 0 0x1000FFFD).2 = 65536) ∧
    (0x10000001 : Nat) % 2 ^ 28 % 4 ≠ 0 ∧ trapper.inTrap = false ∧ trapper.tvec ≠ 0 ∧ Ctx.zero.tvec = 0 ∧ { trapper with inTrap := true }.inTrap = true ∧
    (scrBad Ctx.zero (ab 8 0)).anyPoison ((scrBad Ctx.zero (ab 8 0)).scratchAddrs 0 8 1) = true ∧
    (scr Ctx.zero (ab 8 0)).anyPoison ((scr Ctx.zero (ab 8 0)).scratchAddrs 0 8 1) = false ∧
    maskedBad (vo 0x80F 0) = true ∧ maskedBad (vo 0x80D 0) = false ∧ (scr Ctx.zero (ab 0x20000000 0)).arrayOk 0 0 0 = false := by decide +kernel

theorem witness_SharedScratchRequests : (Instr.ldw, 4) ∈ [(Instr.ldb, 1), (.ldw, 4)] ∧ (0x10000000 : Nat) / 2 ^ 28 = 1 ∧
    [Instr.ldb, .ldd, .std].all (fun i => checkOp i (scr Ctx.zero (ab 0x1000FFF8 5)) == .ok) = true ∧ checkOp .vld (scr Ctx.zero (ab 0x1000FC00 5)) = .ok ∧
    checkOp .vst (scr Ctx.zero (ab 0x1000FC00 5)) = .ok ∧ (List.range 1024).any (storeMask (ab 0x1000FC00 5)) = true := by decide +kernel

/-- A long operation of VLS that has advanced far enough. -/
def long1 (load : Bool) : LongOp :=
  { dsel := 0x0A, need := 5, adv := 5, parked := false, trapped := false, overdue := false, tile := 3, isLoad := load, cells := [], shared := [], group := none,
    elems := [], width := 32, seq := 1, bidx := 0 }

theorem witness_LongVectorOperations : (vecIn (vo 0x0D 0)).form.type ≠ .bfp ∧ (vecIn (vo 0x0D 0)).n * 32 ≤ 8192 ∧
    [Instr.vlds, .vld2d, .vsts, .vst2d].all (fun i => checkOp i (scr Ctx.zero (vo 0x0D 0)) == .ok) = true ∧
    [Instr.vgthl, .vsctl].all (fun i => checkOp i (scr Ctx.zero (vo 0x0D 0)) == .ok) = true ∧
    (long1 true).need ≤ (long1 true).adv ∧ (long1 false).shared = [] ∧ ({ Ctx.zero with vlsLong := some (long1 true) } : Ctx).vlsLong = some (long1 true) ∧
    [Instr.vlds, .vld2d, .vsts, .vst2d].all (fun i => checkOp i (scr Ctx.zero { vo 0x0D 0 with a := 0x10000040 }) == .ok) = true ∧
    (long1 true).group = none ∧ (long1 true).parked = false ∧ { long1 false with shared := [(2 ^ 65, 3)] }.shared ≠ [] ∧ (long1 false).cells = [] ∧
    ((List.range (vecIn (vo 0x0D 0)).n).filter (vecIn (vo 0x0D 0)).sel ≠ [] ∧
      (List.range (vecIn (vo 0x80D 0)).n).filter (vecIn (vo 0x80D 0)).sel = []) := by decide +kernel

/-- The MEMs in service. -/
def memsUp : NMap Disc := (List.range 8).map (fun i => (16 + i, { Disc.zero with st := .ready }))

/-- A strand of RCB 7 with buffer 1, whose MEMs serve. -/
def gst (o : Operands) : State :=
  { stc Ctx.zero { o with h := h1 } with
    bufs := [(1, buf1 1)], crews := [(0, { Crew.zero with rcb := 7 })], rcbs := [(7, { Rcb.zero with level := 3 })], disc := memsUp }

theorem witness_GlobalAccessesIssue : [Instr.gldb, .gldh, .gldw, .gldd, .gstb, .gsth, .gstw, .gstd].all (fun i => checkOp i (gst (ab 4088 0)) == .ok) = true ∧
    [Instr.vgld, .vgst].all (fun i => checkOp i (gst (ab 3072 0)) == .ok) = true ∧ (gst (ab 4095 0)).globalCheck 1 .r = .ok ∧
    (gst (ab 4096 0)).globalCheck 1 .r ≠ .ok ∧ (gst (ab 3072 0)).globalCheck 1024 .r = .ok ∧ (gst (ab 3073 0)).globalCheck 1024 .r ≠ .ok := by decide +kernel

/-- A load whose one granule has been read. -/
def load1 (d : LoadDst) (counted : Bool) : GLoad :=
  { seq := 1, dst := d, h := h1, off := 0, addr := 0, size := 4, deadline := 0, notBefore := 0, todo := [], arrived := [], got := [(0, 7)], poison := false, fwd := [], counted := counted,
    cached := true }

/-- A context whose slot L5 waits for it. -/
def landing : Ctx := { Ctx.zero with sillS := [(5, ⟨0, .pending, 1⟩)], loads := [load1 (.scalar 5 true) true], ldc := 1 }

/-- A written line of one byte of buffer 1. -/
def out1 : WcOut := { crew := 0, h := h1, off := 0, cells := [(hAddr h1 0, 9)], ids := [1], parked := none, permanent := false }

/-- A core with it on its way, and in its replay queue. -/
def outCore : Core := { Core.zero with mode := .run, outs := [out1], replay := [], ctx := { Ctx.zero with stc := 1 } }

/-- A core with a line in its write-combining buffer. -/
def wcCore : Core := { Core.zero with wcb := [{ h := h1, off := 0, line := 0, cells := [(hAddr h1 0, 9)], ids := [1], idle := 0, first := 0 }] }

/-- The state of a core beside MEMs that serve. -/
def served (c : Core) : State := { gst Operands.zero with cores := [(0, c)] }

theorem witness_LoadsLandAndStoresReachMemory :
    (landing.loads.find? (fun k => k.seq == 1) = some (load1 (.scalar 5 true) true) ∧ landing.trapSlot = none ∧
      (landing.sillS.get 5 SillS.empty).st = .pending ∧ (landing.sillS.get 5 SillS.empty).seq = 1 ∧ (load1 (.scalar 5 true) true).todo = []) ∧
    (wcCore.replay.length < 8 ∧ wcCore.wcb[0]?.isSome = true) ∧ (outCore.outs[0]? = some out1 ∧ (served outCore).behindParked outCore out1 = false ∧
      (served outCore).bins = [] ∧ (served outCore).storeAnswer out1 = .made ∧ outCore.ctx.crew = out1.crew ∧ outCore.mode ≠ .idle) ∧
    ({ served outCore with disc := [] }.storeAnswer out1 = .refused) ∧ (({ outCore with replay := [out1] } : Core).replay[0]? = some out1 ∧ outCore.preempt = none) ∧
    (({ outCore with freeze := some (0, 5) } : Core).freeze = some (0, 5)) := by decide +kernel

/-! ## Witnesses: latches, waits, flags, pushes, update streams, stream loader -/

/-- gst with a flag segment of 512 flags and selector 0 bound to engine 0, whose buffer has an add32 operator and an open region. -/
def sst (o : Operands) : State :=
  { gst o with
    bufs := [(1, { buf1 1 with uop := 1 })], regions := [(1, { Region.none with bid := 1, hi := 4096, uop := 1, orcb := 7 })],
    crews := [(0, { Crew.zero with rcb := 7, flagLen := 512, bind := [1], scrLen := 65536 })] }

/-- The same with an attached stream. -/
def attached (o : Operands) : State := { sst o with cores := [(0, { Core.zero with mode := .run, ctx := { Ctx.zero with upd := ⟨some (h1, 1), []⟩ } })] }

theorem witness_SlotOperationsIssue : (Instr.tacq, true) ∈ [(Instr.acq, false), (.tacq, true)] ∧
    [Instr.acq, .tacq, .sigwt, .sigrd].all (fun i => checkOp i (gst (ab 4088 3)) == .ok) = true ∧ ((gst (ab 4088 3)).core 0).replay.length < 8 ∧
    -- a region bound to latch 5, a stream attached to it, and latch 0, which no region is bound to
    (let s : State := { attached (ab 5 3) with bufs := [(1, { buf1 1 with latch := 5 })] }
     (s.core 0).ctx.upd.att = some (h1, 1) ∧ s.turn.ops.a.toNat % 2 ^ 16 ≠ 0 ∧ (s.buf (h1.toNat / 2 ^ 40)).latch.toNat = s.turn.ops.a.toNat % 2 ^ 16) ∧
    (attached (ab 0 3)).turn.ops.a.toNat % 2 ^ 16 = 0 := by
  decide +kernel

/-- A request for a latch. -/
def lreq (shr : Bool) : LatchReq := { core := 0, crew := 0, seq := 1, shr := shr }

/-- A slot operation. -/
def sop (w : SlotWait) : SlotOp := { seq := 1, slot := 3, notBefore := 0, wait := w, tout := 0, bad := none, parked := [] }

/-- A core whose slot 3 waits for it. -/
def waiting (w : SlotWait) : Core := { Core.zero with mode := .run, ctx := { Ctx.zero with slotOps := [sop w], sillS := [(3, ⟨0, .pending, 1⟩)] } }

/-- The state of that core, with the landing of operation 1 to make. -/
def slotSt (w : SlotWait) : State := { stk (waiting w) Operands.zero with turn := { Turn.zero with item := 1 } }

theorem witness_LatchGrantAndLanding :
    (let s : State := { slotSt .fence with latches := [(1, { Latch.free with wq := [lreq true] })] }
     (s.latch 1).wq = lreq true :: [] ∧ (s.latch 1).mode = 0) ∧
    (let s : State := { slotSt .fence with latches := [(1, { Latch.free with mode := 1, holders := [(1, 1)], wq := [lreq false] })] }
     (s.latch 1).wq = lreq false :: [] ∧ (s.latch 1).mode = 1 ∧ (s.core (lreq false).core).mode ≠ .idle ∧
       (s.core (lreq false).core).ctx.crew = (lreq false).crew) ∧
    (let s : State := { slotSt .fence with latches := [(1, { Latch.free with abh := true, wq := [lreq false] })] }
     (s.latch 1).wq = lreq false :: [] ∧ (s.latch 1).mode = 0 ∧ (s.latch 1).abh = true) ∧
    ({ slotSt .fence with latches := [(1, { Latch.free with mode := 2, wq := [lreq true] })] }.latch 1).mode = 2 ∧
    (∀ w, w ∈ [SlotWait.fence, .acq 1 false false 0 true 0, .acq 1 false true 0 true 0, .acq 1 false false 9 true 0, .acq 1 false false 0 true 2,
      .sigwt 0 0 5 0, .sigwt 0 0 0 0, .sigwt 0 0 5 9, .code 1, .poisoned, .rel 5 false [], .rel 0 false [], .xfence 0 1 []] →
      (((slotSt w).core 0).mode ≠ .idle ∧ ((slotSt w).core 0).preempt = none ∧ ((slotSt w).core 0).ctx.crew = (slotSt w).turn.crew ∧
        (sop w).notBefore ≤ (slotSt w).cycle (0 / 16) ∧ (((slotSt w).core 0).ctx.sillS.get 3 SillS.empty).seq = (sop w).seq ∧ ((slotSt w).core 0).ctx.slotOps.find? (fun k => k.seq == 1) = some (sop w) ∧
        ((slotSt w).core 0).ctx.trapSlot = none ∧ (((slotSt w).core 0).ctx.sillS.get 3 SillS.empty).st = .pending)) ∧
    (slotSt .fence).slotCode 0 0 ((slotSt .fence).core 0).ctx (sop .fence) = some 1 ∧
    (slotSt (.code 1)).slotCode 0 0 ((slotSt (.code 1)).core 0).ctx (sop (.code 1)) = some 1 ∧
    (slotSt (.xfence 0 1 [])).slotCode 0 0 ((slotSt (.xfence 0 1 [])).core 0).ctx (sop (.xfence 0 1 [])) = some 1 ∧
    (let s : State := stk { waiting (.rel 5 false []) with ctx := { (waiting (.rel 5 false [])).ctx with latches := [(5, false)] } } Operands.zero
     s.slotCode 0 0 (s.core 0).ctx (sop (.rel 5 false [])) = some 1) ∧
    (slotSt (.acq 1 false false 0 true 0)).slotCode 0 0 ((slotSt (.acq 1 false false 0 true 0)).core 0).ctx (sop (.acq 1 false false 0 true 0)) = none ∧
    (slotSt (.rel 0 false [])).slotCode 0 0 ((slotSt (.rel 0 false [])).core 0).ctx (sop (.rel 0 false [])) = some 0 ∧
    (slotSt .poisoned).slotCode 0 0 ((slotSt .poisoned).core 0).ctx (sop .poisoned) = some 0 ∧
    (slotSt (.sigwt 0 0 0 0)).bins = [] ∧ ({ slotSt (.sigwt 0 0 0 0) with disc := memsUp }).bufPoisoned 0 8 = false ∧
    ({ slotSt (.sigwt 0 0 0 0) with disc := memsUp, poison := [0] }).bufPoisoned 0 8 = true ∧ (slotSt (.sigwt 0 0 0 0)).tick = 0 ∧
    sigCompare 0 (BitVec.ofNat 64 (ofBytes (Memory.readN (slotSt (.sigwt 0 0 0 0)).mem 0 8))) 0 = true ∧
    sigCompare 0 (BitVec.ofNat 64 (ofBytes (Memory.readN (slotSt (.sigwt 0 0 5 0)).mem 0 8))) 5 = false ∧
    ({ outCore with ctx := { outCore.ctx with crew := 0 } } : Core).storesBefore 0 2 = true ∧
    [[(1 : Nat)]].any (fun e => e.any (fun p => decide (p < 2))) = true ∧ (sop (.rel 5 true [])).wait = .rel 5 true [] := by
  and_intros <;> decide +kernel

/-- A core whose waiting release point took note of its parked store. -/
def notingCore : Core := { outCore with replay := [out1], ctx := { outCore.ctx with slotOps := [{ sop (.rel 5 false []) with parked := [1] }] } }

theorem witness_StoreDiscards : notingCore.replay[0]? = some out1 ∧ notingCore.ctx.crew = out1.crew ∧ notingCore.mode ≠ .idle ∧ notingCore.preempt = none ∧
    notingCore.ctx.slotOps.find? (fun j => j.parked.any (fun i => out1.ids.contains i)) = some { sop (.rel 5 false []) with parked := [1] } ∧
    outCore.ctx.slotOps = [] := by decide +kernel

/-- A wait held in issue. -/
def waitHold (cond : WaitCond) (timeout : Nat) : Hold :=
  { held 0 none with alloc := none, wait := some { cond := cond, condWord := 0, timeout := timeout, startTick := 0, slot := 0 } }

/-- Its state, some clocks later. -/
def waitSt (h : Hold) (x : Ctx) : State := { stk { holder h with ctx := x } Operands.zero with now := 300 }

theorem witness_WaitsHoldAndEnd : checkOp .waitv (scr Ctx.zero Operands.zero) = .ok ∧
    ((waitSt (waitHold (.tags 0 true) 0) Ctx.zero).core 0).hold.isSome = true ∧ (waitHold (.tags 0 true) 0).born < (waitSt (waitHold (.tags 0 true) 0) Ctx.zero).now ∧
    ((waitSt (waitHold (.tags 0 true) 0) Ctx.zero).waitCond 0 { cond := .tags 0 true, condWord := 0, timeout := 0, startTick := 0, slot := 0 }).1 = true ∧
    ((waitSt (waitHold (.tags 1 false) 10) Ctx.zero).waitCond 0 { cond := .tags 1 false, condWord := 0, timeout := 10, startTick := 0, slot := 0 }).1 = false ∧
    (0 + 10 ≤ (waitSt (waitHold (.tags 1 false) 10) Ctx.zero).tick) ∧ ((waitSt (waitHold (.tags 1 false) 11) Ctx.zero).tick < 0 + 11) ∧
    Ctx.zero.vctl.getLsbD 14 = false ∧ { trapper with vctl := 0x4000 }.vctl.getLsbD 14 = true ∧
    (trapper.inTrap = false ∧ trapper.tvec ≠ 0) ∧ ({ trapper with inTrap := true }.inTrap ≠ (trapper.tvec == 0)) ∧
    (Ctx.zero.inTrap ≠ (Ctx.zero.tvec == 0)) := by decide +kernel

/-- A remote increment that has arrived, with a flag that it takes to its end. -/
def remoteSt (old : BitVec 16) : State :=
  { sst Operands.zero with flags := [(2, old)], remotes := [{ fromSite := 0, fromPart := 0, fromCore := 0, crew := 0, idx := 2, inc := -1 }], prc := [(0, 1)] }

theorem witness_FlagsAndTags : [Instr.flrd, .flset, .fladd].all (fun i => checkOp i (sst (ab 511 1)) == .ok) = true ∧
    (Ctx.zero.tags &&& (5 : Word) = 0 ∧ { Ctx.zero with tags := 6 }.tags &&& (5 : Word) ≠ 0) ∧ (0x100000000 : Word).getLsbD 32 = true ∧
    (remoteSt 0).remotes[0]?.isSome = true ∧ (remoteSt 0).crews.find 0 = some { Crew.zero with rcb := 7, flagLen := 512, bind := [1], scrLen := 65536 } ∧
    (match exec .fladd { (sst (ab 2 0xFFFF)) with flags := [(2, 0)] } with | .next t => ((t.core 0).inflight.map (fun f => f.writes), t.flags.get 2 9) | _ => ([], 7)) =
      ([[(0, .s 0), (1, .s 1)]], 0) := by decide +kernel

/-- A queue entry of engine 0. -/
def qent (w : Bits256) : QEnt :=
  { word := w, h0 := h1, h1 := h1, core := 0, crew := 0, part := 0, stamp := 1, sill := 0, pkt := none, node := 0, chain := none }

/-- The state whose engine 0 stands as given. -/
def engSt (x : Engine) (o : Operands) : State := { sst o with engines := [(0, x)] }

/-- A MEM with 16 entries queued. -/
def fullEng : Engine := { Engine.zero with queue := List.replicate 16 (qent 0), elastic := [(0, List.replicate 8 (qent 0))] }

/-- A FILL of 0 bytes. -/
def fillOp (sel : Word) : Operands := { ab sel 0 with h := h1, h1 := h1, word := BitVec.ofNat 256 (0x02 * 2 ^ 248) }

theorem witness_EngineQueuePushes : [Instr.push, .pusht].all (fun i => checkOp i (engSt Engine.zero (fillOp 0)) == .ok) = true ∧
    (engSt Engine.zero (fillOp 0)).boundEngine 0 0 0 = some 0 ∧ (engSt Engine.zero (fillOp 33)).boundEngine 0 0 33 = some 392 ∧
    (engSt Engine.zero (fillOp 34)).boundEngine 0 0 34 = none ∧ (engSt Engine.zero (fillOp 1)).boundEngine 0 0 1 = none ∧
    8 ≤ (((engSt fullEng (fillOp 0)).eng 0).elasticOf 0).length ∧ ((engSt fullEng (fillOp 0)).eng 0).queue.length = 16 ∧
    oldestHead ((engSt { fullEng with queue := [] } (fillOp 0)).eng 0).elastic = some (0, qent 0) ∧ fullEng.off.find? (fun q => (engSt fullEng (fillOp 0)).comesBack 0 q) = none ∧
    (let x : Engine := { Engine.zero with off := [qent 0] }
     ((engSt x (fillOp 0)).eng 0).off.find? (fun q => (engSt x (fillOp 0)).comesBack 0 q) = some (qent 0)) := by decide +kernel

/-- A pair for the element at offset 8. -/
def pair8 : UPair := { region := 1, off := 8, addr := hAddr h1 8, val := 5, h := h1, seq := 1 }

/-- A bin of the 32-bit integer add. -/
def bin8 : Bin :=
  { region := 1, uop := 1, sum := 0, pinf := false, ninf := false, nan := false, z := true, val := 0xFFFFFFFF, count := 1, stamp := 1, charged := [] }

/-- A stream with a pair. -/
def paired (bins : NMap Bin) : State :=
  { sst Operands.zero with cores := [(0, { Core.zero with mode := .run, ctx := { Ctx.zero with upd := ⟨some (h1, 1), [[pair8]]⟩, upc := 1 } })], bins := bins }

theorem witness_UpdateStreams : checkOp .updOpen (sst Operands.zero) = .ok ∧
    [Instr.emit, .emitv].all (fun i => checkOp i (attached (ab 4092 1)) == .ok) = true ∧ ((attached (ab 0 0)).core 0).ctx.upd.att = some (h1, 1) ∧
    (((List.range ((2 : Word).toNat % 2 ^ 9)).filter (fun q => !(2 : Word).getLsbD 12 || (0 : Mask).getLsbD q)).map
      (fun q => ((0 : Word).toNat + elem (0 : VReg) 32 q, elem (0 : VReg) 32 q))) ≠ [] ∧
    checkOp .emitv (attached { ab 4092 1 with f := 1 }) = .ok ∧ Ctx.zero.upd.att = none ∧
    (paired []).turn.engine < 128 ∧ ((paired []).core 0).mode ≠ .idle ∧ ((paired []).core 0).ctx.crew = (paired []).turn.crew ∧ bin8.uop = 1 ∧ bin8.count ≠ 0 ∧
    firstPair ((paired []).core 0).ctx.upd.entries = some pair8 ∧ (paired []).pairHeld pair8 = false ∧
    (paired [(hAddr h1 8, bin8)]).bins.find (hAddr h1 8) = some bin8 ∧ bin8.count < 2 ^ 40 ∧
    (paired [(hAddr h1 8, bin8)]).bufPoisoned (hAddr h1 8) 4 = false ∧ Memory.wf (paired []).mem = true ∧
    ((paired [(hAddr h1 8, bin8)]).readBuf (hAddr h1 8) 4).1 = ([0xFF, 0xFF, 0xFF, 0xFF], false) := by decide +kernel

/-- A stream of 4-byte entries. -/
def strm (st : StreamSt) (count g : Nat) (q : List StreamEnt) : Stream :=
  { Stream.none with st := st, hasDesc := true, h := h1, stride := 4, count := count, esize := 2, g := g, queue := q }

/-- A strand with it. -/
def strmSt (x : Stream) : State := { gst Operands.zero with cores := [(0, { Core.zero with mode := .run, ctx := { Ctx.zero with stream := x } })] }

theorem witness_StreamLoader : checkOp .sopen (gst Operands.zero) = .ok ∧ checkOp .spop (strmSt (strm .running 5 1 [.landed 7])) = .ok ∧
    (strm .closed 0 0 []).hasDesc = true ∧ (strm .running 5 1 [.landed 7]).queue = .landed 7 :: [] ∧ checkOp .spop (strmSt (strm .done 1 1 [])) = .ok ∧
    (strmSt (strm .running 5 1 [])).underCut 0 = false ∧ ({ strmSt (strm .running 5 1 []) with parts := [(0, { Part.zero 0 with cutting := true })] }).underCut 0 = true ∧
    (strmSt (strm .running 1025 0 [])).capCheck 0 ((strmSt (strm .running 1025 0 [])).rcbOf 0) (some 0) h1 4092 4 .r = none ∧
    (strmSt (strm .running 1025 0 [])).capCheck 0 ((strmSt (strm .running 1025 0 [])).rcbOf 0) (some 0) h1 4096 4 .r = some cCAP_BOUNDS ∧
    (let s : State := strmSt (strm .running 5 1 [.flying])
     let l : GLoad := { load1 (.stream 0 0) false with seq := 1 }
     ({ (s.core 0).ctx with loads := [l] }).loads.find? (fun k => k.seq == 1) = some l ∧ l.todo = [] ∧ l.notBefore ≤ s.cycle 0 ∧
       ((s.core 0).ctx.stream.q ≤ 0 ∧ 0 < (s.core 0).ctx.stream.g)) := by decide +kernel

/-! ## Witnesses: copy engines -/

/-- An entry of engine e that has progressed. -/
def actOf (q : QEnt) (prog : Nat) (checked : Bool) : Act := { Act.ofEnt q 0 0 with prog := prog, checked := checked }

/-- Its engine's state. -/
def exOf (a : Act) : ExecEnt := { ExecEnt.ofEnt a.ent 0 0 with main := a }

/-- sst with engine e executing an entry. -/
def run1 (e : Nat) (x : ExecEnt) : State := { sst Operands.zero with engines := [(e, { Engine.zero with cur := some x })], turn := { Turn.zero with engine := e } }

/-- An entry of the word 0 run by engine e from its checks on. -/
def fresh (e : Nat) : State := run1 e (exOf (actOf (qent 0) 0 false))

/-- The word of a description. -/
def wordOf (i : Instr) : Bits256 := (encode i).elim 0 (fun p => BitVec.ofNat 256 p.2)

theorem witness_EntriesStopAndComplete : Live (fresh 0) (qent 0) ∧ ({ fresh 0 with crews := [] }).crews.find (qent 0).crew = none ∧ ((fresh 0).eng 0).cur = some (exOf (actOf (qent 0) 0 false)) ∧ (exOf (actOf (qent 0) 0 false)).act = actOf (qent 0) 0 false ∧
    (copyChk ⟨4000, 0, 97, 1, 0, 0⟩ (fresh 0) (qent 0)).isSome = true ∧ (copyxChk ⟨0, 0, 4, 1, 0, 0, 5, false, false⟩ (fresh 0) (qent 0)).isSome = true ∧
    (fillChk ⟨4000, 97, 0, 0⟩ (fresh 0) (qent 0)).isSome = true ∧ (accwChk ⟨4000, 0, 97, 1, 0, 0, 0, 0, 0, false⟩ (fresh 0) (qent 0)).isSome = true ∧
    (atomChk ⟨4096, 0, false, 0, false, 0, 0⟩ (fresh 0) (qent 0)).isSome = true ∧ (uopenChk ⟨0, false⟩ (fresh 384) (qent 0)).isSome = true ∧
    (regionChk (fresh 384) { qent 0 with h1 := 0 }).isSome = true ∧ (fresh 0).turn.engine = 0 ∧ engClass 0 ≠ 1 ∧ ((fresh 0).core 0).mode ≠ .idle ∧
    ((fresh 0).core 0).ctx.crew = (qent 0).crew ∧ (qent 0).pkt = none ∧ (exOf (actOf (qent 0) 1 true)).sub = none ∧ (exOf (actOf (qent 0) 1 true)).done = false ∧ ({ exOf (actOf (qent 0) 1 true) with done := true }).done = true := by
  unfold Live; decide +kernel

/-- A window handle of launch queue 3 of partition 0 (R287). -/
def hw : Handle := BitVec.ofNat 64 ((0xFFFC00 + 3) * 2 ^ 40 + 0xF * 2 ^ 28)

/-- The state whose copy engine 0 executes a COPY to that window. -/
def windowed (full : Bool) : State :=
  let a := actOf { qent (wordOf (.copy hT ⟨0, 0, 64, 1, 0, 0⟩)) with h1 := hw } 0 true
  { run1 0 { exOf a with window := true } with
    rcbs := [(1, { Rcb.zero with level := 1 }), (7, { Rcb.zero with level := 2, parent := 1 })],
    parts := [(0, { Part.zero 0 with queues := [(3, { LaunchQ.zero with v := true, pkts := if full then List.replicate 64 ⟨0, 0, none, none, [], none⟩ else [] })] })] }

/-- An instance that gives crew 0 the handle of buffer 1 as entry 2 of its table. -/
def tabled (s : State) : State := { s with insts := [(7, { Inst.zero with htab := [(2, h1)], nent := 3 })] }

theorem witness_CopyEngineMoves : Live (tabled (fresh 0)) (qent 0) ∧ (fresh 0).bins = [] ∧ Memory.wf (fresh 0).mem = true ∧ copyChk ⟨0, 0, 97, 2, 0, 97⟩ (fresh 0) (qent 0) = none ∧
    (fresh 0).active 0 = some (actOf (qent 0) 0 false) ∧ (fresh 0).bufPoisoned (hAddr h1 0) 97 = false ∧ (fresh 0).writeWaits (hAddr h1 0) 97 = false ∧
    ((granules (hAddr h1 0) 97).all (fun g => decide (((fresh 0).ext ((fresh 0).extAt (g * 64))).st ≠ .lost) && (fresh 0).memServes (extMem ((fresh 0).extAt (g * 64))))) = true ∧
    isWindow hw = true ∧ windowQueue hw = (0, 3) ∧ copyChk ⟨0, 0, 64, 1, 0, 0⟩ (windowed false) { qent 0 with h1 := hw } = none ∧
    (((windowed false).part 0).queue 3).pkts.length < 64 ∧ 64 ≤ (((windowed true).part 0).queue 3).pkts.length ∧
    (((windowed true).eng 0).cur.map (fun c => c.window && !c.done)) = some true ∧ (windowed true).bufPoisoned (hAddr h1 0) 64 = false ∧
    copyxChk ⟨0, 0, 4, 2, 0, 0, 2, false, false⟩ (tabled (fresh 0)) (qent 0) = none ∧ (tabled (fresh 0)).tableHandle (qent 0) 2 = some h1 ∧
    ((tabled (fresh 0)).entErr (qent 0) h1 4096 4 .r).map (fun f => f.code) = some cCAP_BOUNDS ∧ (tabled (fresh 0)).entErr (qent 0) h1 4092 4 .r = none ∧
    (((tabled (fresh 0)).entErr (qent 0) 0 0 4 .r).map (fun f => decide (f.code ≠ cCAP_BOUNDS))) = some true ∧
    ((granules (hAddr h1 0) 4).all (fun g => ((fresh 0).ext ((fresh 0).extAt (g * 64))).st == .hbm)) = true ∧
    fillChk ⟨0, 4096, 0, 0⟩ (fresh 0) (qent 0) = none := by
  unfold Live; decide +kernel

/-- An entry whose ATOM returns to slot 3 (R304). -/
def atomWord : Bits256 := wordOf (.atom hT ⟨0, 0, false, 3, true, 1, 5⟩)

/-- A state that executes it, with the slot waiting. -/
def atomSt : State :=
  { run1 0 (exOf (actOf { qent atomWord with sill := 1 } 0 false)) with
    cores := [(0, { Core.zero with mode := .run, ctx := { Ctx.zero with ldc := 1, sillS := [(3, ⟨0, .pending, 1⟩)] } })] }

/-- A SIGWAIT that has waited its time. -/
def sigwaiting : State := { run1 0 (exOf (actOf (qent (wordOf (.sigwait hT ⟨0, 5, 0, 1⟩))) 0 true)) with now := 30 }

theorem witness_CopyEngineAtomics : Live sigwaiting (qent (wordOf (.sigwait hT ⟨0, 5, 0, 1⟩))) ∧ etypeOf 1 = .int true 16 ∧
    accwChk ⟨0, 64, 64, 1, 0, 0, 0, 0, 0, false⟩ (fresh 0) (qent 0) = none ∧ 0 < (etypeOf 0).width / 8 ∧ 64 % ((etypeOf 0).width / 8) = 0 ∧
    etypeOf 0 = .int true 8 ∧ etypeOf 13 = .fp .fp32 ∧ atomChk ⟨4092, 0, false, 0, false, 0, 0⟩ (fresh 0) (qent 0) = none ∧
    isRetAtom atomWord = true ∧ isRetAtom 0 = false ∧ (atomSt.core 0).mode ≠ .idle ∧ ((atomSt.core 0).ctx.sillS.get (atomWord.toNat / 2 ^ 175 % 2 ^ 5) SillS.empty).st = .pending ∧
    ((atomSt.core 0).ctx.sillS.get (atomWord.toNat / 2 ^ 175 % 2 ^ 5) SillS.empty).seq = 1 ∧ firstErr [noWindow (qent 0), (fresh 0).entErr (qent 0) h1 4088 8 .w] = none ∧
    sigChk 4088 .w (fresh 392) (qent 0) = none ∧ sigChk 4088 .r (fresh 0) (qent 0) = none ∧ xfenWaits ⟨0⟩ (fresh 0) (qent 0) = false ∧
    xfenWaits ⟨0⟩ (run1 0 (exOf (actOf { qent 0 with stamp := 0 } 0 false))) (qent 0) = true ∧
    ((sigwaiting.eng 0).cur.map (fun c => !c.done && c.act.checked)) = some true ∧
    ((wordOf (.sigwait hT ⟨0, 5, 0, 1⟩)).toNat / 2 ^ 248 = 0xA2 ∧ (wordOf (.sigwait hT ⟨0, 5, 0, 1⟩)).toNat / 2 ^ 99 % 2 ^ 18 = 1 ∧ 0 + 1 ≤ sigwaiting.tick) ∧
    (wordOf (.sigwait hT ⟨0, 5, 0, 2⟩)).toNat / 2 ^ 99 % 2 ^ 18 = 2 ∧ sigwaiting.tick < 0 + 2 ∧ sigCompare 0 0 0 = true ∧ sigCompare 0 0 5 = false := by
  unfold Live; decide +kernel

/-- A CHAIN of two words from offset 0 of entry 2, which pushes words of other classes to selector 16. -/
def chain2 : ChainBody := { lent := 2, loff := 0, rlen := 0, nent := 2, woff := 0, poff := 0, wen := true, pen := false, tq := 16 }

/-- The state that executes it, with a signal v and the word w to run. -/
def chainSt (w : Bits256) (v : Nat) (sub : Option Act) (ended : Bool) : State :=
  let a := actOf (qent (wordOf (.chain hT { chain2 with loff := 32 }))) 0 true
  { tabled (run1 0 { exOf a with sub := sub, ended := ended }) with
    mem := Memory.writeBytes (Memory.writeBytes [] (hAddr h1 0) (toBytes v 8)) (hAddr h1 32) (toBytes w.toNat 32),
    crews := [(0, { Crew.zero with rcb := 7, bind := List.replicate 16 1 ++ [129] })] }

/-- The state in a domain with both link chiplets in service. -/
def domed (s : State) : State :=
  { s with mgmt := { Mgmt.zero with indom := true }, disc := s.disc ++ [25, 26].map (fun i => (i, { Disc.zero with st := .ready, units := 0xFF })) }

/-- A word that a CHAIN has fetched. -/
def fetched (w : Bits256) : Act := actOf { qent w with chain := some (0, 0) } 0 false

/-- The state in a domain, with the ports of the unit of a COLL to send on and of one sent on port 3, whose flits stand as given. -/
def colling (up : Bool) (replay wire : Nat) (aux : List Nat) : State :=
  let s : State := { run1 0 (exOf { actOf (qent 0) 0 true with aux := aux }) with foano := [(3, ⟨8, replay, wire⟩)] }
  if up then domed s else { domed s with disc := s.disc ++ [(25, { Disc.zero with st := .ready, units := 0xF7 })] }

/-- COLL of 4,096 bytes to package 0 on port 3. -/
def coll3 : CollBody := ⟨0, 0, 4096, 0, 3, false, 0, 0, 0, 0, false⟩

theorem witness_CollUnits : (colling true 16 16 []).peerUp coll3 = true ∧ (colling true 16 16 []).portFrom [3] 0 = some 0 ∧
    ((colling true 16 16 []).collPorts coll3).filter (fun k => decide (k < 16)) = [3] ∧
    (colling false 16 16 []).portUp 3 = false ∧ (colling false 16 16 []).portFrom [3, 4] 1 = some 1 ∧
    (colling false 16 16 []).peerUp { coll3 with port := 16, peer := 2 } = false ∧
    ({ colling false 16 16 [] with routes := [(2, 3 + 4 * 2 ^ 5 + 31 * 2 ^ 10 + 31 * 2 ^ 15)] }).peerUp { coll3 with port := 16, peer := 2 } = true ∧
    (colling true 16 3 [0]).portUp 3 = true ∧ ((colling true 16 3 [0]).port 3).wire < ((colling true 16 3 [0]).port 3).replay ∧
    ((colling true 16 16 [0]).port 3).replay ≤ ((colling true 16 16 [0]).port 3).wire ∧ (colling true 16 16 []).bufPoisoned (hAddr h1 0) 4096 = false ∧
    ((colling true 16 16 [0]).eng 0).cur.map (fun c => c.act.aux) = some [0] ∧ Live (colling true 16 16 [0]) (qent 0) := by
  unfold Live
  and_intros <;> decide +kernel

theorem witness_ChainAndColl : Live (chainSt 0 (2 ^ 63) none false) (qent (wordOf (.chain hT { chain2 with loff := 32 }))) ∧ (chainSt 0 1 none false).tableHandle (qent 0) 2 = some h1 ∧ (chainSt 0 1 none false).bins = [] ∧
    ((chainSt 0 (2 ^ 63) none false).signalAt (hAddr h1 0)).toInt < 0 ∧ ((chainSt 0 0 none false).signalAt (hAddr h1 0)).toInt = 0 ∧
    (chainSt 0 0 none false).bufPoisoned (hAddr h1 0) 8 = false ∧
    (match chainReady { chain2 with loff := 32 } (chainSt 0 1 none false) h1 0 with | .ok b => b | _ => false) = true ∧
    (chainSt 0 1 none false).entErr (qent 0) h1 32 32 .r = none ∧ (chainSt 0 1 none false).countRoom (qent 0) 0 = true ∧ isRetAtom 0 = false ∧
    32 ≤ (fetched (wordOf (.mrelease hT))).ent.word.toNat / 2 ^ 248 ∧ (chainSt 0 1 (some (fetched (wordOf (.mrelease hT)))) false).boundEngine 0 0 16 = some 128 ∧
    ((chainSt 0 1 none false).eng 128).queue.length < 16 ∧ (qent (wordOf (.chain hT { chain2 with loff := 32 }))).word.getLsbD 35 = false ∧
    ((chainSt 0 1 none true).eng 0).cur.map (fun c => c.ended && c.sub.isNone && decide (c.opens = []) && c.main.checked) = some true ∧
    (let b : ChainBody := { chain2 with loff := 32, pen := true, lent := 2, poff := 64 }
     let w : Bits256 := wordOf (.chain hT b)
     let s := { tabled (run1 0 { exOf (actOf (qent w) 1 true) with ended := true }) with mem := [] }
     w.getLsbD 35 = true ∧ (s.eng 0).cur.map (fun c => c.ended && c.sub.isNone && decide (c.opens = []) && decide (c.posted + 1 = c.main.prog)) = some true ∧
       s.tableHandle (qent w) (w.toNat / 2 ^ 37 % 2 ^ 11) = some h1 ∧ w.toNat / 2 ^ 48 % 2 ^ 48 = 64 ∧ Memory.wf s.mem = true) ∧
    (fresh 0).peerUp ⟨0, 0, 0, 0, 3, false, 0, 0, 0, 0, false⟩ = false ∧
    (domed (fresh 0)).peerUp ⟨0, 0, 0, 0, 3, false, 0, 0, 0, 0, false⟩ = true ∧
    firstErr [noWindow (qent 0), (fresh 0).entErr (qent 0) h1 0 4096 .r] = none := by
  unfold Live
  and_intros <;> decide +kernel

/-! ## Witnesses: arrays and walkers -/

/-- An array's share. -/
def leased (s : State) (h : Option Nat) : State := { s with arrays := [(0, { ArrayShare.zero with lhold := h, run := 1 })] }

/-- Array 128 with a request for its lease queued. -/
def asking : State := { sst Operands.zero with engines := [(128, { Engine.zero with queue := [qent (wordOf (.mlease hT ⟨64⟩))] })], turn := { Turn.zero with engine := 128 } }

/-- MLOADW of two rows of 64 bytes. -/
def mloadBuf : MloadBody := { doff := 0, rows := 2, rlen := 64, dpitch := 64, src := .buf 3968 64 }

/-- The same from shared scratch. -/
def mloadScr : MloadBody := { mloadBuf with src := .shared 0 64 0 0 2 }

theorem witness_MatrixLeasesAndLoads : ((leased asking (some 0)).arrays.get ((128 - 128) * 64 + 0) ArrayShare.zero).lhold = some asking.turn.core ∧
    ((leased asking (some 3)).arrays.get 0 ArrayShare.zero).lhold ≠ some asking.turn.core ∧ (asking.arrays.get 0 ArrayShare.zero).lhold = none ∧
    (asking.leasePick 128 0).isSome = true ∧ (qent 0).chain = none ∧ (qent 0).part = asking.turn.part ∧ (fresh 128).active 128 = some (actOf (qent 0) 0 false) ∧
    mloadChk 128 0 mloadBuf (fresh 128) (qent 0) = none ∧ mloadChk 128 1 mloadScr (fresh 128) (qent 0) = none ∧
    (fresh 128).bufPoisoned (hAddr h1 3968) 64 = false ∧ (fresh 128).poison = [] ∧ (Memory.readN (fresh 128).mem 0 64).length = 64 ∧
    areaErr ((fresh 128).arrayShareOf 128 2 (qent 0)).2 0 64 2 64 = none := by decide +kernel

/-- MMUL of 2 rows by 2 columns of 17 FP32 elements. -/
def mmul2 : MmulBody := { af := 3, wf := 3, aoff := 0, apitch := 68, woff := 0, wpitch := 68, coff := 0, cpitch := 8, mlast := 1, nlast := 1, k := 17 }

/-- MSTORE of a row of two FP32 elements, with its status word. -/
def mstore1 : MstoreBody :=
  { coff := 0, cpitch := 8, rows := 1, nclast := 1, df := 0, rnd := 0, sat := false, cw := false, doff := 0, dpitch := 0, sen := true, soffs := 8, ph := 0, upd := false }

/-- MEPI of a row of two elements with their bias. -/
def mepi1 : MepiBody := { coff := 0, cpitch := 8, rows := 2, nclast := 1, boff := 16, ben := true, cen := true, lo := 0, hi := 0 }

/-- Array 128 with the FP32 add region of buffer 1. -/
def updSt : State := { fresh 128 with regions := [(1, { Region.none with bid := 1, hi := 4096, uop := 3, orcb := 7 })], bufs := [(1, { buf1 1 with uop := 3 })] }

theorem witness_MatrixArithmetic : Memory.wf (fresh 128).mem = true ∧ (fresh 128).poison = [] ∧ mmulChk 128 mmul2 (fresh 128) (qent 0) = none ∧
    (mmul2.nlast.toNat + 1) * 4 ≤ mmul2.cpitch.toNat ∧ mstoreChk 128 mstore1 (fresh 128) (qent 0) = none ∧
    mstoreChk 128 { mstore1 with upd := true } updSt (qent 0) = none ∧ (fresh 128).writeWaits (hAddr h1 0) 8 = false ∧
    ((granules (hAddr h1 0) 16).all (fun g => decide (((fresh 128).ext ((fresh 128).extAt (g * 64))).st ≠ .lost) &&
      (fresh 128).memServes (extMem ((fresh 128).extAt (g * 64))))) = true ∧
    (exOf (actOf (qent 0) 1 true)).pairs = [] ∧ { exOf (actOf (qent 0) 1 true) with pairs := [pair8] }.pairs ≠ [] ∧
    mepiChk 128 mepi1 (fresh 128) (qent 0) = none ∧ 4 * (mepi1.nclast.toNat + 1) ≤ mepi1.cpitch.toNat ∧
    (∀ r, r < mepi1.rows.toNat → mepi1.boff.toNat + 4 * 2 ≤ mepi1.coff.toNat + r * 8 ∨ mepi1.coff.toNat + r * 8 + 4 * 2 ≤ mepi1.boff.toNat) := by decide +kernel

/-- MatrixElements: DIT of MSTORE into E4M3 (DF 3) and into another format, and the values of an MEPI element that its bounds touch. -/
theorem witness_MatrixElements : ({ mstore1 with df := 3, rnd := 5 } : MstoreBody).df = 3 ∧ ({ mstore1 with rnd := 5 } : MstoreBody).df ≠ 3 ∧
    (FFmt.fp32.decode 0x40000000).isNaN = false ∧ (FFmt.fp32.decode 0x40000000).lt (FFmt.fp32.decode 0x3F800000) = false ∧
    (FFmt.fp32.decode 0x3F800000).lt (FFmt.fp32.decode 0x40000000) = true ∧ (FFmt.fp32.decode 0x7FC00000).isNaN = true := by decide +kernel

/-- WRUN of a tile of 2 rows of 4 bytes. -/
def wrun2 : WrunBody := { pc := 0, ioff := 0, toff0 := 0, toff1 := 64, trlast := 1, tclast := 0, esz := 2, tpitch := 4, maxi := 0 }

/-- ISECT of one pair of bitmap words. -/
def isect1 : IsectBody := { el := 0, clr := true, nw := 1, xboff := 0, xvoff := 64, yboff := 4, yvoff := 128 }

/-- The walker 256 whose bitmaps hold x and y. -/
def bits2 (x y : Nat) : State :=
  { fresh 256 with mem := Memory.writeBytes [] (hAddr h1 0) (toBytes x 4 ++ toBytes y 4), walkers := [(256, { Walker.zero with el := 0 })] }

theorem witness_WalkerCommands : (fresh 256).bins = [] ∧ Memory.wf (bits2 4 4).mem = true ∧ wloadChk ⟨4092, 1, 4095⟩ (fresh 256) (qent 0) = none ∧
    wrunChk 256 wrun2 (fresh 256) (qent 0) = none ∧ (fresh 256).entErr (qent 0) h1 3968 128 .w = none ∧ isectChk isect1 (bits2 4 4) (qent 0) = none ∧
    (bits2 4 4).bufPoisoned (hAddr h1 0) 8 = false ∧ ofBytes (Memory.readN (bits2 4 4).mem (hAddr h1 0) 4) = 2 ^ 2 ∧
    ofBytes (Memory.readN (bits2 4 4).mem (hAddr h1 4) 4) = 2 ^ 2 ∧
    ofBytes (Memory.readN (bits2 5 2).mem (hAddr h1 0) 4) &&& ofBytes (Memory.readN (bits2 5 2).mem (hAddr h1 4) 4) = 0 ∧
    (bits2 4 4).entErr (qent 0) h1 64 1 .r = none ∧ (bits2 4 4).entErr (qent 0) h1 128 1 .r = none ∧ ((bits2 4 4).walker 256).el = isect1.el := by decide +kernel

/-- The walker's tile with its registers: W1 = 1, W2 = 8. -/
def walking (conf : Bool) (x y : BitVec 32) : State :=
  { fresh 256 with walkers := [(256, { Walker.zero with regs := [(1, x), (2, y)], trlast := 1, tclast := 0, esz := 2, tpitch := 4, conf := conf })] }

theorem witness_WalkerProgram : Live (walking true 1 8) ((walking true 1 8).walkerEnt 256) ∧ Memory.wf (walking true 1 8).mem = true ∧ (walking true 1 8).bins = [] ∧
    (Instr.walkerLdb 3 1 0x2000, 1) ∈ [(Instr.walkerLdw 3 1 0x2000, 4), (.walkerLdh 3 1 0x2000, 2), (.walkerLdb 3 1 0x2000, 1)] ∧
    (walking true 1 8).entErr ((walking true 1 8).walkerEnt 256) h1 4092 4 .r = none ∧ ((walking true 1 8).entErr ((walking true 1 8).walkerEnt 256) h1 4093 4 .r).isSome = true ∧
    (1 : BitVec 32).toNat / (((walking true 1 8).walker 256).tclast + 1) ≤ ((walking true 1 8).walker 256).trlast ∧
    ((walking true 1 8).walker 256).trlast < (2 : BitVec 32).toNat / (((walking true 1 8).walker 256).tclast + 1) ∧
    (walking true 1 8).bufPoisoned (hAddr h1 8) 4 = false ∧ (walking true 1 8).arrayIdle 256 = true ∧
    ({ walking true 1 8 with engines := [(128, { Engine.zero with queue := [qent 0] })] }).arrayIdle 256 = false ∧
    ((walking false 1 8).walker 256).conf = false ∧ ((walking true 1 8).walker 256).conf = true ∧ (1 : BitVec 32) &&& 8 = 0 ∧
    ((walking true 1 8).eng 256).cur.isSome = true ∧ ((walking true 1 8).walkerEnt 256).pkt = none ∧
    ((5 : BitVec 32).getLsbD 2 && (4 : BitVec 32).getLsbD 2) = true ∧ (walking true 5 4).boundsErr ((walking true 5 4).walkerEnt 256) h1 1 1 = none ∧
    (walking true 5 4).bufPoisoned (hAddr h1 1) 1 = false := by
  unfold Live; decide +kernel

/-! ## Witnesses: sort engines, shutter control, memory by itself -/

/-- Two I32 keys from offset 0 to offset 1024 (R328). -/
def sort2 : SortBody := { kt := 1, desc := false, pw := 0, n := 2, koff := 0, poff := 0, dkoff := 1024, dpoff := 0 }

/-- Sort engine 320 with the keys 3 and 5 in memory. -/
def keys35 : State := { fresh 320 with mem := Memory.writeBytes [] (hAddr h1 0) (toBytes 3 4 ++ toBytes 5 4) }

theorem witness_SortEngines : keys35.bins = [] ∧ sort2.n ≠ 0 ∧ Memory.wf keys35.mem = true ∧ keys35.exts = [] ∧
    sortChk (sortRanges sort2 2 2) false keys35 (qent 0) = none ∧ sortChk (sortRanges { sort2 with n := 1 } 2 2) false keys35 (qent 0) = none ∧
    (precedes 1 false 3 5 = true ∧ precedes 1 false 5 3 = false) ∧ sort2.n.toNat ≤ 4096 ∧ (actOf (qent 0) 0 false).aux = [] ∧
    keys35.bufPoisoned (hAddr h1 0) 8 = false ∧ keys35.writeWaits (hAddr h1 1024) 8 = false ∧
    ((granules (hAddr h1 1024) 8).all (fun g => decide ((keys35.ext (keys35.extAt (g * 64))).st ≠ .lost) && keys35.memServes (extMem (keys35.extAt (g * 64))))) = true ∧
    hAddr h1 0 + 2 * 4 ≤ hAddr h1 1024 ∧ sortChk { sortRanges sort2 2 2 with dst := (sortRanges sort2 2 2).dst ++ [(2048, 8)] } false keys35 (qent 0) = none ∧
    sortChk { src := [(0, 8), (0, 4)], dst := [(1024, 4)] } false keys35 (qent 0) = none ∧
    sortChk (sortRanges { sort2 with dkoff := 0 } 2 2) true keys35 (qent 0) = none ∧
    (sortChk (sortRanges { sort2 with dkoff := 4 } 2 2) false keys35 (qent 0)).isSome = true := by decide +kernel

/-- Shutter control 384 with no region open. -/
def noRegion : State := { fresh 384 with regions := [], bufs := [(1, buf1 1)] }

theorem witness_ShutterControl : noRegion.bins = [] ∧ uopenChk ⟨1, false⟩ noRegion (qent 0) = none ∧ (fresh 384).exactRegion (qent 0) = some 1 ∧
    ((fresh 384).regions.find 1).map (fun r => r.bid) = some (h1.toNat / 2 ^ 40) ∧ regionChk (fresh 384) (qent 0) = none ∧ (fresh 384).regionBusy 1 = false ∧
    ({ fresh 384 with cores := (attached Operands.zero).cores }).regionBusy 1 = true ∧
    firstErr [regionChk (fresh 384) (qent 0), (fresh 384).entErr (qent 0) h1 4080 16 .w] = none ∧ (fresh 384).writeWaits (hAddr h1 4080) 16 = false ∧
    ((granules (hAddr h1 4080) 16).all (fun g => decide (((fresh 384).ext ((fresh 384).extAt (g * 64))).st ≠ .lost) &&
      (fresh 384).memServes (extMem ((fresh 384).extAt (g * 64))))) = true := by decide +kernel

/-- The same region with a bin of two accepted pairs, for USPILL with APPLY. -/
def spilling : State := { fresh 384 with bins := [(hAddr h1 8, { bin8 with region := 1, count := 2 })] }

theorem witness_QuotaReport : Live ({ spilling with regions := [(1, { Region.none with bid := 1, hi := 4096, uop := 1, orcb := 7, nosp := true })] }) (qent 0) ∧
    (let s : State := { spilling with regions := [(1, { Region.none with bid := 1, hi := 4096, uop := 1, orcb := 7, nosp := true })] }
     firstErr [regionChk s (qent 0), s.entErr (qent 0) h1 64 16 .w] = none ∧ s.exactRegion (qent 0) = some 1 ∧ Memory.wf s.mem = true ∧
       s.writeWaits (hAddr h1 64) 16 = false ∧ (s.bins.all (fun x => (s.regions.get x.2.region Region.none).nosp && !(granules (hAddr h1 64) 16).contains (x.1 / 64))) = true ∧
       (s.bins.filter (fun x => x.2.region == 1)).length = 1) := by
  unfold Live
  and_intros <;> decide +kernel

theorem witness_SpillApplies : Live (fresh 384) (qent 0) ∧ regionChk spilling (qent 0) = none ∧ spilling.active 384 = some (actOf (qent 0) 0 false) ∧
    spilling.exactRegion (qent 0) = some 1 ∧ spilling.bins = [(hAddr h1 8, { bin8 with region := 1, count := 2 })] ∧
    Memory.wf spilling.mem = true ∧ spilling.poison = [] := by
  unfold Live
  and_intros <;> decide +kernel

/-- The extent 5 in a state. -/
def extIn (e : ExtSt) (used : Nat) : State :=
  { st Ctx.zero Operands.zero with exts := [(5, { Ext.hbm with st := e })], extUsed := [(0, used)], turn := { Turn.zero with item := 5 } }

/-- A request of one granule of shared scratch. -/
def sreq (wr : Bool) : SsmReq :=
  { group := 1, rank := 0, born := 0, seq := 1, gran := 2 ^ 59, cells := if wr then [(2 ^ 65, 7)] else [], wr := wr, core := 0, crew := 0, inOrder := false }

/-- The load that it is part of. -/
def sgrp : SsmGroup :=
  { site := 0, core := 0, crew := 0, fu := .lsu, opc := 6, addrs := [2 ^ 65], got := [], left := 1, issued := 0, base := 4, waited := 0, seq := 1, bidx := 0, long := false }

/-- The chiplet with that request. -/
def ssmSt (wr : Bool) : State := { st Ctx.zero Operands.zero with ssm := [sreq wr], ssmGroups := if wr then [] else [(1, sgrp)] }

/-- The same request made by the matrix array 128. -/
def engReq : State := { ssmSt false with ssm := [{ sreq false with core := 4096 + 128 }] }

/-- Array 128 with an MLOADW from shared scratch whose granules have been asked for. -/
def asked (left : Nat) : State :=
  { run1 128 (exOf { actOf (qent 0) 0 true with aux := [1] }) with ssmGroups := [(1, { sgrp with left := left })] }

theorem witness_MatrixLoadFromScratch : (fresh 128).active 128 = some (actOf (qent 0) 0 false) ∧ (actOf (qent 0) 0 false).aux = [] ∧
    (asked 1).active 128 = some { actOf (qent 0) 0 true with aux := [1] } ∧ (asked 1).ssmGroups.find 1 = some { sgrp with left := 1 } ∧
    (asked 0).ssmGroups.find 1 = some { sgrp with left := 0 } ∧ mloadScr.rlen ≠ 0 ∧ 0 < mloadScr.rows.toNat ∧ (asked 0).poison = [] := by decide +kernel

theorem witness_MemoryEvents : ((extIn .migrating 0).ext 5).st = .migrating ∧ 0 < (extIn .migrating 0).hbmFree (extMem 5) ∧ (extIn .migrating 61036).hbmFree 0 = 0 ∧
    hbmExtents ≤ (extIn .hbm 59814).hbmFree 0 * 50 ∧ (extIn .hbm 59815).hbmFree 0 * 50 < hbmExtents ∧
    ({ gst Operands.zero with extUsed := [(0, 59815)], tier2 := [(0, 9)] }).demotable 0 ≠ [] ∧ ((0 : Nat) < (extIn .hbm 0).psmSize 0) ∧
    ((ssmSt true).ssm.filter (fun x => decide (x.gran / 2 ^ 18 = 2 ^ 41 + 0))) = [sreq true] ∧ (ssmSt true).ssmHeld = [] ∧ (ssmSt true).ssmGroups.find 1 = none ∧
    ((ssmSt false).ssm.filter (fun x => decide (x.gran / 2 ^ 18 = 2 ^ 41 + 0))) = [sreq false] ∧ (ssmSt false).ssmGroups.find 1 = some sgrp ∧
    (∀ x, x ∈ sgrp.addrs → x / 64 = (sreq false).gran) ∧ ((ssmSt false).core 0).ctx.crew = sgrp.crew ∧ (sreq false).core < 4096 ∧
    (4096 ≤ (engReq.ssm.headD (sreq true)).core ∧ engReq.ssm.filter (fun x => decide (x.gran / 2 ^ 18 = 2 ^ 41 + 0)) = engReq.ssm ∧ engReq.ssmGroups.find 1 = some sgrp) ∧
    ({ Ctx.zero with sillS := [(31, ⟨0, .full, 0⟩)] }.sillS.get 31 SillS.empty).st = .full := by decide +kernel

/-- A load of one element of 32 bits from shared scratch, long. -/
def longReq : State :=
  { st { Ctx.zero with vlsLong := some { long1 true with group := some 1, elems := [3] } } Operands.zero with
    ssm := [sreq false], ssmGroups := [(1, { sgrp with long := true, addrs := (List.range 4).map (fun i => 2 ^ 65 + i) })] }

theorem witness_LongLoadServed : longReq.ssm.filter (fun x => decide (x.gran / 2 ^ 18 = 2 ^ 41 + longReq.turn.site)) = [sreq false] ∧ longReq.ssmHeld = [] ∧
    (sreq false).wr = false ∧ (longReq.ssmGroups.find 1).map (fun g => decide (g.left = 1) && g.long && g.got.isEmpty && !g.addrs.isEmpty) = some true ∧
    ((List.range 4).map (fun i => 2 ^ 65 + i)).all (fun x => decide (x / 64 = (sreq false).gran)) = true ∧
    ((longReq.core 0).ctx.vlsLong.map (fun l => decide (l.group = some 1) && decide (l.elems = [3]) && decide (l.width = 32))) = some true ∧
    (longReq.core 0).ctx.crew = sgrp.crew ∧ (3 + 1) * 32 ≤ 8192 ∧ ((List.range 4).map (fun i => 2 ^ 65 + i)).length = 1 * (32 / 8) := by decide +kernel

/-! ## Witnesses: launch packets, the graph scheduler, slices, sites and heat -/

/-- A partition 0 with launch queue 3, the handle of buffer 1 at export index 1, and the copy engine 0. -/
def lq (d : LaunchQ) : State :=
  { gst Operands.zero with
    parts := [(0, { Part.zero 0 with
      queues := [(3, d)], exports := [(1, h1)], masks := { Masks.zero with copy := 1, core := 3 } })],
    disc := (List.range 8).map (fun i => (16 + i, { Disc.zero with st := .ready, units := 1 <<< 32 })),
    turn := { Turn.zero with queue := 3, item := 9 } }

/-- The packet that the turn names. -/
def pkt9 (bits : Bits512) (started : Option Nat) : LPkt := { seq := 9, bits := bits, started := started, inst := none, hs := List.replicate 4 h1, ending := none }

/-- The queue with it. -/
def lq9 (bits : Bits512) (started : Option Nat) : State := lq { LaunchQ.zero with v := true, pkts := [pkt9 bits started] }

/-- A preference list of one entry: class 2, image 0, program 0 (R341). -/
def vecPref : Word := 2 * 2 ^ 13

/-- A node's description. -/
def desc1 : NodeDesc :=
  { pend := 1, pinh := false, prio := 0, width := 0, scr := 0, flags := 0, grid := false, prefWord := vecPref, succs := [], argrec := 0,
    stencil := 0, gxl := 0, gyl := 0, slist := 0 }

/-- An image of a class. -/
def img1 (os : List OverlayImg) (ns : List NodeDesc) : Image := { cls := 2, ltv := 1, overlays := os, nodes := ns, handles := [], defs := [], uses := [] }

/-- A resident slot with one image of one node. -/
def slotR : Slot := { Slot.zero with state := 2, images := [img1 [] [desc1]] }

/-- INVOKE of slot 2. -/
def inv (argent : BitVec 3) : InvokePkt := { bar := false, slot := 2, argent := argent, argoff := 0, xh0 := 1, xh1 := 0, xh2 := 0, xh3 := 0, xh4 := 0, xh5 := 0, xh6 := 0, xh7 := 0 }

/-- The state whose slot 2 is resident. -/
def lqSlot : State := let s := lq9 0 none; s.modPart 0 (fun y => { y with slots := [(2, slotR)] })

/-- BARRIER on one signal at offset 8. -/
def bar1 (xh : BitVec 16) : BarrierPkt := { bar := false, any := false, use := 1, c0 := ⟨xh, 8⟩, c1 := ⟨0, 0⟩, c2 := ⟨0, 0⟩, c3 := ⟨0, 0⟩, acode := 0, tout := 1 }

/-- The queue with its signal at v. -/
def barSt (v : Nat) (started : Option Nat) : State :=
  { lq9 (BitVec.ofNat 512 ((encode (.barrier (bar1 1))).elim 0 (fun p => p.2))) started with mem := Memory.writeBytes [] (hAddr h1 8) (toBytes v 8), now := 60 }

/-- COPY of 64 bytes. -/
def cp64 (xh : BitVec 16) : CopyPkt := { bar := false, sxh := xh, soff := 0, dxh := 1, doff := 64, len := 64 }

/-- A COPY packet that has written a part of the argument record at 8 MiB of buffer 1 and has more of it to write. -/
def tearing : State :=
  { lqSlot with
    parts := [(0, { (lqSlot.part 0) with
      queues := [(3, { LaunchQ.zero with
        v := true, pkts := [pkt9 (BitVec.ofNat 512 ((encode (.copyPacket ⟨false, 1, 0, 1, 8, 2 ^ 24⟩)).elim 0 (fun p => p.2))) (some 0)] })] })],
    engines := [(0, { Engine.zero with cur := some (exOf (actOf { qent 0 with pkt := some (0, 3, 9) } 1 true)) })], bufs := [(1, { buf1 1 with size := 2 ^ 25 })] }

/-- A copy engine that runs it. -/
def cpSt : State :=
  { lq9 0 (some 0) with
    engines := [(0, { Engine.zero with cur := some (exOf (actOf { qent 0 with pkt := some (0, 3, 9) } 0 false)) })] }

theorem witness_LaunchPackets : (lq9 0 none).bins = [] ∧ Memory.wf (lq9 0 none).mem = true ∧ (((lq9 0 none).part 0).queue 3).csx = 0 ∧ (((lq9 0 none).part 0).queue 3).v = true ∧
    (((lq9 0 none).part 0).queue 3).pkts.length < 64 ∧ (lq9 0 none).turnPkt = some (pkt9 0 none) ∧
    ((lq9 0 none).slotResident Slot.zero = false ∧ lqSlot.slotResident slotR = true ∧ slotR.graph ≠ [] ∧ lqSlot.argsOk 0 h1 0 slotR.graph = true ∧
      lqSlot.argsOk 0 0 0 slotR.graph = false ∧ (lqSlot.part 0).slot 2 = slotR ∧ lqSlot.nodes.length + slotR.graph.length ≤ 65536 ∧ lqSlot.rcbFree = true ∧
      (invokeIndices (inv 0)).map (fun j => (lqSlot.part 0).exportAt j.toNat) = [h1, 0, 0, 0, 0, 0, 0, 0]) ∧
    ((barSt 0 none).hubCap 0 h1 8 8 .r = none ∧ ((barSt 0 none).hubCap 0 0 8 8 .r).isSome = true ∧ (barSt 0 none).bufPoisoned (hAddr h1 8) 8 = false ∧
      ofBytes (Memory.readN (barSt (2 ^ 64 - 1) none).mem (hAddr h1 8) 8) = 2 ^ 64 - 1 ∧ (BitVec.ofNat 64 (2 ^ 64 - 1)).toInt < 0) ∧
    ((lq9 0 none).hubCap 0 h1 4088 8 .w = none ∧ ((lq9 0 none).hubCap 0 h1 4089 8 .w).isSome = true ∧ isWindow h1 = false) ∧
    (copyPktChk (cp64 1) (lq9 0 none) 0 h1 h1 = true ∧ copyPktChk (cp64 0) (lq9 0 none) 0 0 h1 = false ∧ 0 ∈ (lq9 0 none).copyEngines 0 ∧
      ((lq9 0 none).eng 0).queue.length < 16) ∧
    (lqSlot.argsTorn h1 0 slotR.graph = false ∧ tearing.argsTorn h1 (2 ^ 23) slotR.graph = true ∧ tearing.argsOk 0 h1 (2 ^ 23) slotR.graph = true) ∧
    (let s := lq LaunchQ.zero
     let w : State := { s with
       parts := [(0, { (s.part 0) with queues := [(3, { LaunchQ.zero with v := true, pkts := [pkt9 0 (some 0)] })], exports := [(1, hw)] })],
       engines := [(0, { Engine.zero with cur := some (exOf (actOf { qent 0 with h1 := hw, pkt := some (0, 3, 9) } 0 true)) })] }
     isWindow hw = true ∧ ((w.part (windowQueue hw).1).queue (windowQueue hw).2).pkts.length < 64 ∧ w.bufPoisoned (hAddr h1 0) 64 = false ∧
       w.active 0 = some (actOf { qent 0 with h1 := hw, pkt := some (0, 3, 9) } 0 true)) ∧
    ((((lq9 0 none).part 0).queue 3).pkts.head?.map (fun x => x.seq) = some 9 ∧ (((lq9 0 none).part 0).queue 3).st = .running) ∧
    (decodePacket (pkt9 (BitVec.ofNat 512 ((encode (.barrier (bar1 1))).elim 0 (fun p => p.2))) (some 0)).bits = some (.barrier (bar1 1)) ∧
      (barSt 5 (some 0)).evalBarrier (bar1 1) (List.replicate 4 h1) = .wait ∧ 0 + (bar1 1).tout.toNat ≤ (barSt 5 (some 0)).tick ∧
      (barSt 5 (some 0)).evalBarrier (bar1 1) [] = .bad ∧ (barSt 0 (some 0)).evalBarrier (bar1 1) (List.replicate 4 h1) = .ok ∧
      (barSt (2 ^ 64 - 1) (some 0)).evalBarrier (bar1 1) (List.replicate 4 h1) = .abort 0) ∧
    (cpSt.active 0 = some (actOf { qent 0 with pkt := some (0, 3, 9) } 0 false) ∧ copyPktEnt (cp64 1) cpSt { qent 0 with pkt := some (0, 3, 9) } = none ∧
      cpSt.bufPoisoned (hAddr h1 0) 64 = false ∧ cpSt.writeWaits (hAddr h1 64) 64 = false) := by
  and_intros <;> decide +kernel

/-- Node 9 of instance 7, of class VEC with an overlay, in its ready list, where site 0 has two free cores. -/
def ready9 : Ready := { Ready.zero with node := 9, cls := 2, stamp := 4 }

/-- An overlay image. -/
def ovl : OverlayImg := { size := 1, code := [], consts := [], vshape := 0, vconf := 0, trap := 0, entry := 0 }

/-- The graph's state. -/
def tgs (cls : Nat) : State :=
  { lq LaunchQ.zero with
    parts := [(0, { Part.zero 0 with
      masks := { Masks.zero with core := 3 }, slots := [(2, { slotR with images := [img1 [ovl] []] })] })],
    cores := [], ready := [{ ready9 with cls := cls }], nodes := [(9, { Node.zero with rcb := 7, st := .ready, prefWord := vecPref })],
    insts := [(7, { Inst.zero with slot := 2, nodes := [9] })], disc := [(0, { Disc.zero with st := .ready, cls := 2, cores := 0xFFFF })],
    turn := { Turn.zero with item := 4, crew := 5 } }

/-- A crew of node 9 on core 0. -/
def crew9 (x : CrewSt) : State := { tgs 2 with crews := [(5, { Crew.zero with node := 9, rcb := 7, cores := [0], st := x, scrLen := 65536 })] }

/-- The same crew with its strand halted. -/
def done9 (x : Ctx) : State := { crew9 .draining with cores := [(0, { Core.zero with mode := .halted, ctx := { x with crew := 5 } })] }

/-- A successor that waits for two. -/
def succ9 : State :=
  { done9 Ctx.zero with
    nodes := [(9, { Node.zero with rcb := 7, st := .draining, succs := [10] }), (10, { Node.zero with rcb := 7, st := .waiting, pend := 2 })],
    insts := [(7, { Inst.zero with slot := 2, nodes := [9, 10] })] }

theorem witness_GraphScheduling : (tgs 2).ready.find? (fun x => x.stamp == 4) = some ready9 ∧ (tgs 2).candidate 0 2 = some ready9 ∧
    ((tgs 2).part 0).suspended = false ∧ (tgs 2).partCutting 0 = false ∧ (tgs 0).candidate 0 0 = some { ready9 with cls := 0 } ∧
    ({ tgs 2 with parts := [(0, { (tgs 2).part 0 with suspended := true })] }.part 0).suspended = true ∧
    (prefList (vecPref + 0xE0000000)).length = 2 ∧ (tgs 0).firstPref ((tgs 0).node 9) = some ⟨2, 0, 0⟩ ∧ (tgs 2).ready = [ready9] ∧ ((tgs 2).node 9).grid = false ∧
    (succ9.node 9).done = [] ∧ (succ9.node 10).st = .waiting ∧
    (tgs 2).firstPref ((tgs 2).node 9) = some ⟨2, 0, 0⟩ ∧ (({ tgs 2 with disc := [] }).firstPref ((tgs 2).node 9)).isNone = true ∧ (tgs 2).placeSite 0 2 ((tgs 2).node 9) = some 0 ∧
    (({ tgs 2 with crews := [(5, { (crew9 .loading).crew 5 with cores := [0, 1] })] }).placeSite 0 2 ((tgs 2).node 9)).isNone = true ∧
    (tgs 2).pinRoom 0 [] = true ∧ (crew9 .loading).crewLoaded 5 = true ∧ (crew9 .running).crewLoaded 5 = false ∧ ((crew9 .loading).crew 5).rcb ≠ 0 ∧
    ((crew9 .loading).crewOverlay ((crew9 .loading).crew 5)).isSome = true ∧ (crew9 .running).crewDone 5 = false ∧ (done9 Ctx.zero).crewDone 5 = true ∧
    (done9 Ctx.zero).crewUnresolved 5 = none ∧ (done9 { Ctx.zero with unresolved := some (0, h1) }).crewUnresolved 5 = some (0, 0, h1) ∧
    succ9.crewDone 5 = true ∧ (succ9.node 9).succs.Nodup ∧ 10 ∈ (succ9.inst 7).nodes ∧ 2 ≤ (succ9.node 10).pend.toNat ∧
    (tgs 2).agesNow ready9 = false ∧
    ({ tgs 2 with now := 60000000, rcbs := [(1, { Rcb.zero with level := 1, ceil := 7, age := 10 }), (7, { Rcb.zero with level := 3, parent := 1, age := 10 })] }).agesNow ready9 = true ∧
    (tgs 2).isCore 256 = false ∧ (tgs 2).isCore 0 = true ∧ (({ Core.zero with mbState := 1 } : Core)).mbState = 1 := by
  and_intros <;> decide +kernel

/-- Bytes of an image for the mailbox of core 0, held by buffer 1. -/
def mailSt (im : List Byte) : State :=
  { gst Operands.zero with cores := [(0, { Core.zero with mbImg := h1 })], mem := Memory.writeBytes [] (hAddr h1 0) im, crews := [] }

/-- GO's hypothesis is met as soon as the image format, which the spec leaves open (log 6), has one well-formed one-node image of the class. -/
theorem witness_Go (im : Image) (d : NodeDesc) (h : Config.parseImage (Memory.readN (mailSt []).mem (hAddr h1 0) (viewLen 0 4096)) = some im)
    (hi : im = img1 [ovl] [d]) (hd : prefList d.prefWord = [⟨2, 0, 0⟩]) :
    (mailSt []).mailboxOverlay 0 = some (ovl, 0) := by
  have hm : (mailSt []).mailboxImage 0 = some im := by
    have e : (mailSt []).mailboxImage 0 = Config.parseImage (Memory.readN (mailSt []).mem (hAddr h1 0) (viewLen 0 4096)) := by
      unfold State.mailboxImage
      rw [if_neg (by decide +kernel)]
      rfl
    rw [e, h]
  have hc : ((mailSt []).coreCls 0).code = 2 := by decide +kernel
  have hl : (mailSt []).ltvOf 2 = 1 := by decide +kernel
  subst hi
  have hb : badNames [img1 [ovl] [d]] = false := by simp [badNames, img1]
  unfold State.mailboxOverlay
  simp only [hm, hb]
  simp [hc, hl, hd, ovl, img1]

theorem witness_GoRefusals : (mailSt []).bins = [] ∧ (mailSt []).isCore 0 = true ∧ ((mailSt []).core 0).mbState = 0 ∧
    (mailSt []).crews.any (fun x => x.2.st != .out && x.2.cores.contains 0) = false ∧
    (crew9 .running).crews.any (fun x => x.2.st != .out && x.2.cores.contains 0) = true := by decide +kernel

/-- A cut of the partition 0 in progress, with the crew of core 0 that has stopped. -/
def cutSt (m : Mode) : State :=
  { crew9 .running with
    cores := [(0, { Core.zero with mode := m, ctx := { Ctx.zero with crew := 5 } })],
    parts := [(0, { (crew9 .running).part 0 with cutting := true })], turn := { Turn.zero with item := 1024, crew := 5 } }

/-- A gang that is out. -/
def outSt (x : CrewSt) (place : SlotPlace) : State :=
  { tgs 2 with crews := [(5, { Crew.zero with node := 9, rcb := 7, cores := [0], st := .out })], saved := [⟨5, x, [(0, Ctx.zero)], [], [], [], [], place, []⟩], turn := { Turn.zero with crew := 5 } }

/-- A state with site 16 in a state. -/
def siteSt (x : SiteSt) : State := { State.reset with disc := [(16, { Disc.zero with st := x })] }

/-- Core 3 in a slice of partition 0. -/
def sliceSt (now ends : Nat) : State := { tgs 2 with slices := [(4, ⟨0, ends, false⟩)], now := now }

theorem witness_SlicesSitesAndHeat : (tgs 2).slices.find 4 = none ∧ (sliceSt 0 5).slices.find 4 = some ⟨0, 5, false⟩ ∧ (sliceSt 5 5).nextSlice 0 4 = 0 ∧
    ({ sliceSt 5 5 with parts := [(0, { Part.zero 0 with masks := { Masks.zero with core := 16 } }), (1, { Part.zero 1 with masks := { Masks.zero with core := 16 } })],
                        ready := [{ ready9 with part := 1 }], disc := [(0, { Disc.zero with st := .ready, cls := 2, cores := 0xFFFF })] }).nextSlice 0 4 = 1 ∧
    (cutSt .stopped).cutting 0 1024 = true ∧ (cutSt .stopped).cutDone 0 1024 = true ∧ (cutSt .run).cutDone 0 1024 = false ∧ (cutSt .stopped).cutCrews 0 1024 = [5] ∧
    (cutSt .stopped).saved = [] ∧
    (∀ x, x ∈ [SlotPlace.memory, .outgoing, .incoming [], .incoming [0]] → (outSt .running x).cutting 0 0 = false ∧
      (outSt .running x).saved.find? (fun y => y.crew == (outSt .running x).turn.crew) = some ⟨5, .running, [(0, Ctx.zero)], [], [], [], [], x, []⟩ ∧
      (outSt .running x).restorable ⟨5, .running, [(0, Ctx.zero)], [], [], [], [], x, []⟩ = true ∧
      (outSt .running x).stageable ⟨5, .running, [(0, Ctx.zero)], [], [], [], [], x, []⟩ = decide (x = .memory)) ∧
    (outSt .running (.incoming [])).restorable ⟨6, .running, [], [], [], [], [], .incoming [], []⟩ = false ∧
    (outSt .running .memory).stageable ⟨6, .running, [], [], [], [], [], .memory, []⟩ = false ∧
    ({ State.reset with errored := [16] }).errored = [16] ∧ (16 : Nat) ∉ (siteSt .draining).forced ∧ (State.reset.tick % 1000 = 0) ∧
    (State.reset.governor.lowered = [] ∧ 15 < State.reset.governor.clock 0) ∧
    (let g := State.reset.governor.lower 2
     g.lowered = [.vec] ∧ Cls.vec.code < 4 ∧ g.clock 2 < 31) ∧ (∀ j, j < 4 → ({ State.reset.governor with set := ⟨15, 15, 15, 15⟩ }).clock j ≤ 15) ∧ (5 : Nat) < 16 ∧
    siteMove 16 .ready .draining = true ∧ siteMove 24 .ready .draining = false ∧ siteMove 24 .ready .absent = true ∧
    ((siteSt .draining).siteDisc 16).st = .draining ∧ (siteSt .draining).siteIdle 16 = true ∧ ((siteSt .calibrating).siteDisc 16).st = .calibrating ∧
    (siteSt .calibrating).mgmt.newFw = false ∧ 16 ∉ (siteSt .draining).forced := by
  and_intros <;> decide +kernel

/-! ## Witnesses: commands, management and links -/

/-- Partition 0 with node 9 of RCB 7 faulted, its crew stopped on core 0. -/
def flt (f : FaultInfo) : State :=
  { crew9 .faulted with
    nodes := [(9, { Node.zero with rcb := 7, st := .faulted, fault := some f })],
    cores := [(0, { Core.zero with mode := .stopped, preempt := some Ctx.zero })] }

/-- A fault of copy engine 0. -/
def engF : FaultInfo := { strandFault 0x40 0 0 0 0 with src := 1, esite := 16, eng := 0 }

/-- The same with the strand frozen where it stood, and with the gang switched out by a cut. -/
def frozenStrand : State := { flt (strandFault 0x30 0 0 0 0) with cores := [(0, { Core.zero with mode := .stopped })] }
def outGang : State :=
  { flt (strandFault 0x30 0 0 0 0) with
    crews := [(5, { (crew9 .running).crew 5 with st := .out, before := .running })]
    nodes := [(9, { Node.zero with rcb := 7, st := .faulted, before := .suspended, fault := some (strandFault 0x30 0 0 0 0) })] }

theorem witness_Resume : (frozenStrand.core 0).preempt = none ∧ (frozenStrand.core 0).mode = .stopped ∧ (frozenStrand.node 9).grid = false ∧
    (frozenStrand.node 9).before ≠ .suspended ∧ frozenStrand.crewsOf 9 = [5] ∧ (frozenStrand.crew 5).st = .faulted ∧
    outGang.crewsOf 9 = [5] ∧ (outGang.crew 5).st = .out ∧ (outGang.crew 5).before ≠ .faulted ∧ (outGang.node 9).before = .suspended ∧
    outGang.nodeStatus 0 9 = 0 ∧ ({ Node.zero with grid := true } : Node).grid = true := by decide +kernel

theorem witness_FaultCommands : (flt engF).nodeStatus 0 10 = 1 ∧ (flt engF).nodeStatus 1 9 = 8 ∧ (crew9 .running).nodeStatus 0 9 = 1 ∧ (flt engF).nodeStatus 0 9 = 0 ∧
    (flt (strandFault 0x30 0 0 0 0)).crewsOf 9 = [5] ∧ ((flt engF).crew 5).st = .faulted ∧ (strandFault 0x30 0 0 0 0).src = 0 ∧ (strandFault 0x30 0 0 0 0).code ≠ cNO_CLASS ∧
    (flt engF).underCut 5 = false ∧ ({ flt engF with parts := [(0, { (flt engF).part 0 with cutting := true })] }).underCut 5 = true ∧
    ((flt engF).core 0).mode = .stopped ∧ ((flt engF).crew 5).cores = [0] ∧ ((flt engF).core 0).preempt = some Ctx.zero ∧ engF.src = 1 ∧ engF.eng ≠ 7 * 2 ^ 5 ∧
    (flt engF).insts.find 8 = none ∧ (flt engF).insts.find 7 = some { Inst.zero with slot := 2, nodes := [9] } ∧ ((flt engF).part 0).suspended = false ∧
    ({ (flt engF).part 0 with suspended := true }).suspended = true ∧ ((flt engF).part 0).cutting = false ∧ (flt engF).slices = [] := by
  and_intros <;> decide +kernel

/-- Partition 0 whose owner acts: a job 70, site 0 in its masks. -/
def own (x : SiteSt) : State :=
  { lq LaunchQ.zero with
    rcbs := [(0, { Rcb.zero with budget := 524288 }), (1, { Rcb.zero with level := 1, budget := 524288, parent := 0, state := 1 }),
      (7, { Rcb.zero with level := 3, parent := 70, state := 1 }), (70, { Rcb.zero with level := 2, parent := 1, state := 1 })],
    disc := [(0, { Disc.zero with st := x })] ++ (lq LaunchQ.zero).disc }

/-- A slot in a state. -/
def slotIn (x : BitVec 3) : Slot := { slotR with state := x }

theorem witness_OwnerCommands : ((256 : Word).toNat = 256 ∧ Slot.zero.state = 0 ∧ (slotIn 4).state = 4 ∧ (slotIn 2).state = 2) ∧
    ((own .ready).loadImages 0 [0, 0, 0, 0] = none ∧ ((own .ready).imageReason []) = 0 ∧ (own .ready).imageReason [{ img1 [] [] with uses := [(2, "f")] }] = 6 ∧
      (own .ready).imageReason [{ img1 [] [] with uses := [(2, "f")], defs := ["f"] }] = 0) ∧
    (lqSlot.insts = [] ∧ (7, { Inst.zero with slot := 2, nodes := [9] }) ∈ (tgs 2).insts) ∧
    ((own .ready).allocReason 1 0 1 0 none = 0 ∧ (own .ready).allocReason 0 0 1 0 none ≠ 0) ∧
    ((own .ready).hubBase 0 h1 = none ∧ (own .ready).hubBase 0 0 ≠ none ∧ h1.toNat / 2 ^ 40 < 0xFFFC00) ∧ ((lq9 0 none).part 0).queue 3 ≠ LaunchQ.zero ∧
    ((own .ready).rcb 70).level = 2 ∧ ((own .ready).rcb 70).part.toNat = 0 ∧ (own .ready).rcbFree = true ∧ (own .ready).isJob 0 70 = true ∧ (own .ready).isJob 0 1 = false ∧
    ({ own .ready with rcbs := [(70, { Rcb.zero with level := 2, parent := 1, state := 1 })], bufs := [] }).isJob 0 70 = true ∧
    ((own .ready).part 0).exportAt 1 = h1 ∧ ((own .ready).buf 1).orcb ≠ 0 ∧ (own .ready).rcbOfPart 0 ((own .ready).buf 1).orcb = true ∧
    ((own .ready).siteStatus 0 0 .ready = 0 ∧ (own .fenced).siteStatus 0 0 .fenced = 0 ∧ (own .ready).siteOwners 0 = [0] ∧ (own .ready).siteStatus 0 1 .ready = 8) ∧
    ((own .ready).keys.get 2047 Key.zero = Key.zero ∧ ((own .ready).part 0).fsel.toNat = 1 ∧ (own .ready).rcbOfPart 0 1 = true ∧ ((own .ready).ring 1).recs.length = 0) ∧
    (let s := { own .ready with parts := [(0, { (own .ready).part 0 with axi := 1 })] }
     s.hubCap 0 ((s.part 0).exportAt (s.part 0).axi.toNat) (4032 : Nat) 64 .r = none ∧ (s.hubCap 0 ((s.part 0).exportAt (s.part 0).axi.toNat) (4033 : Nat) 64 .r).isSome = true) ∧
    ((List.range 256).all (fun n => !(({ Masks.zero with core := 3 } : Masks).core.getLsbD n) || State.reset.isCore n) = true ∧ State.reset.crews = [] ∧
      (List.range 256).all (fun n => decide ((({ State.reset with parts := State.reset.parts.set 0 { State.reset.part 0 with masks := { Masks.zero with core := 3 } } } : State).sharers
        (fun k => k.core.getLsbD n)).length ≤ 8)) = true) ∧ (BitVec.allOnes 256).getLsbD 104 = true := by
  and_intros <;> decide +kernel

/-- Partition 0 with its aperture on buffer 1. -/
def aped : State := { own .ready with parts := [(0, { (own .ready).part 0 with axi := 1 })] }

theorem witness_Aperture : aped.bins = [] ∧ Memory.wf aped.mem = true ∧ (aped.part 0).exportAt (aped.part 0).axi.toNat = h1 ∧
    aped.writeWaits (hAddr h1 64) 64 = false ∧ aped.bufPoisoned (hAddr h1 64) 64 = false ∧
    (granules (hAddr h1 64) 64).all (fun g => decide ((aped.ext (aped.extAt (g * 64))).st ≠ .lost) && aped.memServes (extMem (aped.extAt (g * 64)))) = true ∧
    { aped with poison := [hAddr h1 64 / 64] }.bufPoisoned (hAddr h1 64) 64 = true ∧ (aped.hubCap 0 h1 (4096 : Nat) 1 .w).isSome = true ∧
    (List.range 128).all (fun a => decide ((({ State.reset with parts := State.reset.parts.set 0 { State.reset.part 0 with masks := { Masks.zero with core := 3 } } } : State).sharers
        (fun k => k.array.getLsbD a)).length ≤ 8)) = true := by
  and_intros <;> decide +kernel

/-- A mask bit that names no core: the chiplets of 8 cores leave some. -/
theorem witness_MaskWriteRefused : ∃ n, n < 256 ∧ (BitVec.allOnes 256).getLsbD n = true ∧ State.reset.isCore n = false :=
  (by decide +kernel : (List.range 256).any (fun n => (BitVec.allOnes 256).getLsbD n && !State.reset.isCore n) = true) |> fun h => by
    obtain ⟨n, hn, h⟩ := List.any_eq_true.mp h
    exact ⟨n, List.mem_range.mp hn, by simp_all⟩

/-- LOAD's third branch is met as soon as the image format, which the spec leaves open (log 6), has one well-formed image. -/
theorem witness_Load (im : Image) (h : (own .ready).loadImage 0 h1 = some im) (hi : im = img1 [ovl] [desc1]) :
    (own .ready).loadImages 0 [h1, 0, 0, 0] = some [im] ∧ (own .ready).imageReason [im] = 0 := by
  subst hi
  refine ⟨?_, by decide +kernel⟩
  have e : ([h1, 0, 0, 0].reverse.dropWhile (fun h => h == 0)).reverse = [h1] := by decide +kernel
  have z : ¬h1 = 0#64 := by decide +kernel
  unfold State.loadImages
  rw [e]
  simp [h, z, img1]

/-- Management with a slot opened and staged. -/
def mg (mode : BitVec 2) (opened : Option Bool) (pending : Option Bool) (pause : Nat) : State :=
  { State.reset with mgmt := { Mgmt.zero with mode := mode, opened := opened, staged := true, pending := pending, pauseEnd := pause } }

/-- A unit from package 3 for buffer 1. -/
def unit1 (h : Handle) : CollUnit := { peer := 3, handle := h, doff := 0, data := [1, 2], acc := false, type := 0, op := 0, rnd := 0, rsen := false, rsoff := 0 }

/-- The package in a domain. -/
def inDom : State := { gst Operands.zero with mgmt := { Mgmt.zero with indom := true, mode := 0 } }

theorem witness_RegistersManagementAndLinks : (mg 0 none none 0).mgmt.opened = none ∧ (mg 0 (some true) none 0).mgmt.opened = some true ∧
    ((mg 0 (some true) none 0).mgmt.boxes.get 3 Mailbox.zero) = Mailbox.zero ∧ (mg 0 (some true) none 0).mgmt.staged = true ∧ { Turn.zero with fw := true }.fw = true ∧
    Turn.zero.fw = false ∧ ({ State.reset with keys := [(5, { Key.zero with valid := true, part := 2 })] }).keyUsable 2 5 = true ∧
    ((0 : Word).toNat % 2048 = 0 ∧ 0 < (2048 : Word).toNat ∧ (2048 : Word).toNat ≤ 2048 ∧ (0 : Word).toNat + (2048 : Word).toNat ≤ 2 ^ 26) ∧
    (mg 0 none (some true) 0).mgmt.pending = some true ∧ (mg 2 none none 0).mgmt.mode = 2 ∧ (mg 2 none none 0).mgmt.pending = none ∧
    (mg 2 none none 0).mgmt.held = [] ∧ (mg 2 none none 0).mgmt.pauseEnd ≤ (mg 2 none none 0).tick ∧
    (mg 2 none none 1).tick < (mg 2 none none 1).mgmt.pauseEnd ∧ inDom.mgmt.indom = true ∧ inDom.mgmt.mode ≠ 1 ∧ (mg 0 none none 0).mgmt.indom = false ∧
    (∀ i, i < 4 → (0 : Word).toNat / 2 ^ (5 * i) % 2 ^ 5 < 16) ∧ (State.reset.foano.get 0 Foano.zero).lanes = 8 ∧
    (({ State.reset with foano := [(15, ⟨4, 3, 3⟩)] }).foano.get 15 Foano.zero).lanes ≠ 8 ∧ (State.reset.port 3).lanes ≠ 0 ∧ (48 : BitVec 6).toNat < 49 ∧ 49 ≤ (49 : BitVec 6).toNat ∧
    inDom.collAccepts (unit1 h1) = true ∧ inDom.collAccepts (unit1 0) = false ∧ inDom.writeWaits (hAddr h1 0) 2 = false ∧
    (granules (hAddr h1 0) 2).all (fun g => decide ((inDom.ext (inDom.extAt (g * 64))).st ≠ .lost) && inDom.memServes (extMem (inDom.extAt (g * 64)))) = true ∧
    (unit1 h1).acc = false ∧ (unit1 h1).rsen = false ∧ inDom.bins = [] ∧ Memory.wf inDom.mem = true ∧
    ({ Key.zero with asked := true }.asked = true ∧ ({ Mgmt.zero with session := true }).session = true ∧ Mgmt.zero.session = false) := by
  and_intros <;> decide +kernel

/-- Management after reset with slot 1 opened and staged. -/
def stagedSt : State := mg 0 (some true) none 0

/-- What the signatures and CRCs come to is open (log 6): with no valid marker record no slot is active, and an image that verifies is booted;
with none that verifies there is no slot to boot. -/
theorem witness_Boot (hm : markerValid 0#128 = false) :
    stagedSt.mgmt.active = none ∧
      (verifyCode [] 0 = 0 → stagedSt.verifies true = true ∧ stagedSt.bootSlot = some false) ∧
      (verifyCode [] 0 ≠ 0 → stagedSt.verifies true = false ∧ stagedSt.bootSlot = none) := by
  have hc : stagedSt.mgmt.cands = [] := by
    have : [0#128, 0].filter markerValid = [] := by simp [hm]
    show (match [0#128, 0].filter markerValid with | [a, b] => if markerSeq a < markerSeq b then [b, a] else [a, b] | _ => [0#128, 0].filter markerValid) = []
    rw [this]
  have hv : ∀ b, stagedSt.verifies b = (verifyCode [] 0 == 0) := fun b => by
    have : stagedSt.flash b = [] := by cases b <;> decide +kernel
    show (verifyCode (stagedSt.flash b) 0 == 0) = _
    rw [this]
  refine ⟨by simp [Mgmt.active, hc], fun h => ?_, fun h => ?_⟩ <;> simp [State.bootSlot, hc, hv, h]

/-! ## Witnesses: bundles -/

/-- A bundle of a write to each kind of register, an operand port, a trigger and an empty slot. -/
def bun1 : Bundle := bun [(.srf 1, .imm 5), (.prf 3, .imm 1), (.crf 2, .crf 3), (.port .ala 1, .srf 4), (.trig .ala 0, .srf 3)] [(.vrf 1, .vrf 2), (.mrf 3, .vrf 4)]

/-- The turn of a core whose vector registers are all configured, at bundle 7. -/
def bst (x : Ctx) : State := { stk { Core.zero with mode := .run, ctx := { x with vconf := 128 } } Operands.zero with turn := { Turn.zero with bidx := 7 } }

/-- An ALLOC of one byte. -/
def allocBun : Bundle := bun [(.port .sys 1, .imm 0), (.trig .sys 8, .imm 1)] []

theorem witness_BundleTakesEffect : Clear (bst Ctx.zero) bun1 ∧ Clear (bst Ctx.zero) { bun1 with loopEnd := true } ∧ ¬ Holding (bst Ctx.zero) bun1 ∧
    Clear (bst { Ctx.zero with lc := 1, esc := 1 }) { bun1 with loopEnd := true } := by
  unfold Clear Holding; decide +kernel

theorem witness_OneWriter : OneWriter bun1 := by
  intro i j m k hi hj h
  have hb : bundleSlots bun1 = [some ⟨⟨false, 0⟩, .srf 1, .imm 5⟩, some ⟨⟨false, 0⟩, .prf 3, .imm 1⟩, some ⟨⟨false, 0⟩, .crf 2, .crf 3⟩, some ⟨⟨false, 0⟩, .port .ala 1, .srf 4⟩,
    some ⟨⟨false, 0⟩, .trig .ala 0, .srf 3⟩, some ⟨⟨false, 0⟩, .vrf 1, .vrf 2⟩, some ⟨⟨false, 0⟩, .mrf 3, .vrf 4⟩, none] := by decide +kernel
  rw [hb] at hi hj
  have hi8 : i < 8 := (List.getElem?_eq_some_iff.mp hi).1
  have hj8 : j < 8 := (List.getElem?_eq_some_iff.mp hj).1
  have h7 : ∀ n, n < 8 → n = 0 ∨ n = 1 ∨ n = 2 ∨ n = 3 ∨ n = 4 ∨ n = 5 ∨ n = 6 ∨ n = 7 := by omega
  rcases h7 i hi8 with rfl | rfl | rfl | rfl | rfl | rfl | rfl | rfl <;>
    rcases h7 j hj8 with rfl | rfl | rfl | rfl | rfl | rfl | rfl | rfl <;> simp at hi hj <;> subst hi <;> subst hj <;>
    first
    | rfl
    | (exfalso; rcases h with h | ⟨f, o, h1, h2 | ⟨q, h2⟩⟩
       · revert h; decide
       · first | (simp at h1; done) | (simp at h2; done)
       · first | (simp at h1; done) | (simp at h2; done))

/-- A move that reads slot L5, which is PENDING. -/
def sillBun : Bundle := bun [(.srf 1, .sill 5)] []

/-- The core whose slot L5 is PENDING. -/
def pend5 : State := bst { Ctx.zero with sillS := [(5, ⟨0, .pending, 1⟩)] }

/-- A core without vector registers. -/
def novec : State := { bst Ctx.zero with cores := [(0, { Core.zero with mode := .run })] }

/-- An ARITH trap that waits. -/
def arith1 : Arith := { fu := 10, bidx := 3, slot := 0, raised := 1, lowest := 0, seq := 1 }

/-- A push of a word to a queue whose elastic buffer is full. -/
def pushFull : State :=
  { engSt fullEng Operands.zero with turn := { Turn.zero with bidx := 7 } }

theorem witness_StoppedOrHeldHasNoEffect :
    (firstPending (pend5.readMoves 0 sillBun) = some (0, 5) ∧ (pend5.core 0).ctx.arith = none ∧ pend5.tick < pend5.tick + 200000) ∧
    (firstPending (novec.readMoves 0 (bun [] [(.vrf 1, .vrf 2)])) = none ∧ faultsOf (finds novec (bun [] [(.vrf 1, .vrf 2)])) ≠ [] ∧ (novec.core 0).ctx.vregOk 2 = false) ∧
    (((bst { trapper with arith := some arith1 }).core 0).ctx.arith = some arith1 ∧ ((bst { trapper with arith := some arith1 }).core 0).ctx.inTrap = false ∧
      ((bst { trapper with arith := some arith1 }).core 0).ctx.tvec ≠ 0 ∧ faultsOf (finds (bst { trapper with arith := some arith1 }) (bun [] [])) = []) ∧
    (anyFreeze (finds pushFull (bun [(.trig .cmd 0, .imm 0)] [])) = true ∧ faultsOf (finds pushFull (bun [(.trig .cmd 0, .imm 0)] [])) = []) ∧
    ((firstTrap (finds (bst trapper) (bun [(.trig .lsu 4, .imm 1)] []))).isSome = true ∧ faultsOf (finds (bst trapper) (bun [(.trig .lsu 4, .imm 1)] [])) = [] ∧
      anyFreeze (finds (bst trapper) (bun [(.trig .lsu 4, .imm 1)] [])) = false) ∧
    (Clear (bst Ctx.zero) allocBun ∧ Holding (bst Ctx.zero) allocBun) := by
  unfold Clear Holding; decide +kernel

/-! ## Witnesses: operands, slots, numbers and masks -/

theorem witness_MaskAndCapabilityMoves :
    (match decodeBundle true (BitVec.ofNat 256 ((encode (.move (bun [(.crf 2, .crf 3)] []))).elim 0 (fun p => p.2))) with
      | .ok b => (bundleSlots b)[0]? == some (some ⟨⟨false, 0⟩, .crf 2, .crf 3⟩)
      | .error _ => false) = true ∧ dstKind true (.crf 2) = some .k ∧
    (match decodeBundle true (BitVec.ofNat 256 ((encode (.move (bun [(.crf 2, .imm 0)] []))).elim 0 (fun p => p.2))) with
      | .ok _ => false
      | .error _ => true) = true ∧
    (match (bst Ctx.zero).fetch 0 (bun [] []) (.srf 1) (.crf 3) with
      | .got (.k h) => h == 0
      | _ => false) = true := by decide +kernel

theorem witness_EmptySlotsAndGuards : decodeMove true (0b10000 * 2 ^ 25 + 1) = none ∧ decodeMove false (0b10000 * 2 ^ 25) = some none ∧
    (slotBits ((0b10000 * 2 ^ 25 + 1) * 2 ^ 210))[0]? = some (0b10000 * 2 ^ 25 + 1) ∧ (BitVec.ofNat 256 ((0b10000 * 2 ^ 25 + 1) * 2 ^ 210)).getLsbD 252 = false := by
  decide +kernel

theorem witness_CoreNumbers : (∀ site, site < 16 → (State.reset.isCore (site * 16 + 15) = true ↔ (State.reset.cls site = .dmx ∨ State.reset.cls site = .vec))) ∧
    ((List.range 256).filter (fun n => State.reset.isCore n)).length = 224 ∧
    ((List.range 256).filter (fun n => ({ State.reset with population := .d }).isCore n)).length = 240 := by decide +kernel

theorem witness_StencilMaskBits : (-2, -2) ∈ stencilOffsets 1 ∧ (2, 2) ∈ stencilOffsets (1 <<< 23) ∧ (-1, 0) ∈ stencilOffsets (1 <<< 11) ∧ (1, 0) ∈ stencilOffsets (1 <<< 12) := by
  decide +kernel

theorem witness_OperationsWriteNoRegister : opOf .ala 0 ≠ none ∧ (flew (.add .ala) (st Ctx.zero (ab 1 2))).length = 1 := by decide +kernel

/-! ## Witnesses: steps, encodings and invariants -/

/-- An overlay with one bundle. -/
def ovl1 (w : Bits256) : Overlay :=
  { part := 0, slot := 0, prog := 0, image := 0, sgen := 0, size := 1, code := [(0, w)], consts := [], vshape := 0, vconf := 0, trap := 0, entry := 0, last := 0, bad := [] }

/-- A core about to issue it. -/
def fetching (w : Bits256) : State := { State.reset with cores := [(0, { Core.zero with mode := .run, overlays := [ovl1 w], running := some 0 })], agenda := [.issue 0] }

/-- The encoding of an empty bundle. -/
def emptyWord : Bits256 := BitVec.ofNat 256 ((encode (.move (bun [] []))).elim 0 (fun p => p.2))

/-- A CSR write of PIDX due now. -/
def pidxDue : Deferred := { due := 0, late := false, slot := 0, fu := .sys, opc := 1, bidx := 0, ops := { Operands.zero with b := 4 }, born := 0 }

theorem witness_StepOrder : { State.reset with written := [0] }.written ≠ [] ∧ State.reset.written = [] ∧ ((fetching emptyWord).core 0).deferred = [] ∧
    pidxDue.due ≤ ((fetching emptyWord).core 0).age ∧ pidxDue.writesPidx = true ∧ ((fetching emptyWord).core 0).badRestore = false ∧
    ((fetching emptyWord).core 0).parityBad = false ∧ ((fetching emptyWord).core 0).stopReq = none ∧
    (let s := fresh 0
     (s.eng 0).cur.map (fun c => c.stoppable && !s.xfenStuck 0 c) = some true ∧ s.entryServed 0 (qent 0) = true ∧ s.orphan (qent 0) = false) := by decide +kernel

theorem witness_StepRunsTheDecodedInstruction : State.reset.hostLinkDown = false ∧ State.reset.agenda = .run Turn.zero .boot :: [] ∧
    ((fetching emptyWord).core 0).overlay = some (ovl1 emptyWord) ∧
    (match decodeBundle true emptyWord with | .ok b => b == bun [] [] | .error _ => false) = true ∧
    (match decodeBundle true (emptyWord ||| (1 <<< 255)) with | .error (.bundle _) => true | _ => false) = true ∧
    (match decodeBundle true (emptyWord ||| (1 <<< 210)) with | .error (.transport 0 _ _) => true | _ => false) = true ∧
    (match ({ Walker.zero with store := [(0, 0x3F * 2 ^ 26)], maxi := 1 }).fetch with | .ok x => (match decodeWalker x with | .ok i => i == .done | _ => false) | _ => false) = true ∧
    nextPacket [] [{ pkt9 0 none with bits := BitVec.ofNat 512 (0x05 * 2 ^ 56) }] = some { pkt9 0 none with bits := BitVec.ofNat 512 (0x05 * 2 ^ 56) } ∧
    decodePacket (BitVec.ofNat 512 (0x05 * 2 ^ 56)) = some (.reset ⟨false⟩) ∧
    (let s := { run1 0 (exOf (actOf (qent (wordOf (.xfen hT ⟨3⟩))) 0 false)) with disc := [(16, { Disc.zero with st := .ready })], agenda := [.engine 0] }
     s.siteRuns (engSite 0) = true ∧ s.engineServes 0 0 = true ∧ opcOf (wordOf (.xfen hT ⟨3⟩)) / 32 = engClass 0 ∧ decodeTile (wordOf (.xfen hT ⟨3⟩)) = some (.xfen hT ⟨3⟩)) := by
  decide +kernel

/-- One instruction of each encoding is well formed and has a word. -/
theorem witness_DecodeReadsEncodeBack : [Instr.move bun1, .move { bun [(.srf 1, .limm)] [] with limm := some 77 }, .xfen hT ⟨3⟩, .mmul hT ⟨14, 8, 8, 16, 24, 32, 40, 48, 31, 63, 32⟩,
    .walkerLdw 15 14 0x3FFF, .bnz 15 0xFFF, .done, .reset ⟨true⟩, .copyPacket ⟨false, 1, 2, 3, 4, 5⟩].all (fun i => i.wf && (encode i).isSome) = true := by decide +kernel

theorem witness_EveryStepKeepsMemoryCanonical : Memory.wf (fresh 0).mem = true ∧ Memory.wf (keys35).mem = true ∧ (fetching emptyWord).hostLinkDown = false := by decide +kernel

theorem witness_PackageOff : ({ State.reset with hostLinkDown := true }).hostLinkDown = true ∧ step { State.reset with hostLinkDown := true } = .fault .packageOff := by
  exact ⟨rfl, rfl⟩

/-! ## Single steps with the results of the rules -/

/-- R160, R161: a signed division truncates, -7 / 2 is -3 with remainder -1. -/
theorem test_div : flew .div (st Ctx.zero (ab (-7) 2)) = [(0, .s (-3))] ∧ flew .rem (st Ctx.zero (ab (-7) 2)) = [(0, .s (-1))] := by decide +kernel

/-- R161's examples of EXTR and INS. -/
theorem test_extr_ins : flew (.extr .ala) (st Ctx.zero (ab 0xABCD 0x1C4)) = [(0, .s 0xBC)] ∧
    flew (.ins .ala) (st Ctx.zero { ab 0x5A 0x1C4 with p := 0xFFFF }) = [(0, .s 0xF5AF)] := by decide +kernel

/-- R167: the last row of its table: at pass 4 the loop falls through to the next bundle, and p9 goes to p10. -/
theorem test_loop_end :
    let x := ((after (.move { bun [] [] with loopEnd := true }) (bst { Ctx.zero with prf := 0x0601, lc := 0, esc := 0, rrb := 1, lhead := 3 })).core 0).ctx
    (x.prf, x.lc, x.esc, x.pc) = (0x0C01, 0, 0, 8) := by decide +kernel

/-- R167, the first row: LC 2 falls to 1, p8 goes to p9, the loop goes back to LHEAD. -/
theorem test_loop_back :
    let s := bst { Ctx.zero with prf := 0x0101, lc := 2, esc := 1, lhead := 3 }
    let x := ((after (.move { bun [] [] with loopEnd := true }) s).core 0).ctx
    (x.prf, x.lc, x.esc, x.pc) = (0x0301, 1, 1, 3) := by decide +kernel

/-- R85's worked block: 3.0, -1.25, 0.25 and -0.0 under a width of 4. -/
theorem test_bfp_encode :
    (bfpEncode 4 false none ((List.range 32).map (fun i => [(FFmt.fp32.decode 0x40400000), FFmt.fp32.decode 0xBFA00000, FFmt.fp32.decode 0x3E800000].getD i (FFmt.fp32.decode 0)))).1 % 2 ^ 40 =
      0x01D702B780 := by decide +kernel

/-- R112, R113: the moves of one bundle read before any writes: a swap. -/
theorem test_move_swap :
    let x := ((after (.move (bun [(.srf 1, .srf 2), (.srf 2, .srf 1)] [])) (bst { Ctx.zero with srf := [(1, 5), (2, 7)] })).core 0).ctx
    (x.srf.get 1 0, x.srf.get 2 0, x.pc) = (7, 5, 8) := by decide +kernel

/-- R58: a software trap drains to its entry; R60: without a vector it is the fault TRAP_UNHANDLED. -/
theorem test_trap : ((after .trap (st trapper (ab 9 0))).core 0).mode ≠ .run ∧ ((after .trap (st Ctx.zero (ab 9 0))).core 0).mode ≠ .run := by decide +kernel

/-- R419: the first step after reset is BOOT, and reset has nothing else to do. -/
theorem test_reset : State.reset.agenda = [.run Turn.zero .boot] ∧ State.reset.mem = [] := by decide +kernel

/-- A word that stands where step fetches next runs: the walker's DONE. -/
theorem test_fetch_done : (match step (State.reset.withFetchWord 32 (0x3F * 2 ^ 26)) with
    | .next t => t.turn.engine == 276 && t.agenda.length == State.reset.agenda.length
    | _ => false) = true ∧ decodeTableWord 32 (0x3F * 2 ^ 26) = some .done := by decide +kernel

/-- A bundle that stands there: s1 takes 5. -/
theorem test_fetch_move : (match step (State.reset.withFetchWord 256 ((encode (.move (bun [(.srf 1, .imm 5)] []))).elim 0 (fun p => p.2))) with
    | .next t => (t.core 0).ctx.srf.get 1 0 == 5
    | _ => false) = true := by decide +kernel

/-- R417: the control processor executes addi x5, x0, 7 and then c.li x10, -3, words of the RISC-V manual; firmware in a pause executes nothing. -/
theorem test_control_processor :
    let c : Ctl := { Ctl.zero with tcm := [(0, 0x93), (1, 0x02), (2, 0x70), (3, 0x00), (4, 0x75), (5, 0x55)], running := true }
    let d := (c.step 0).step 0
    (d.reg 5, d.reg 10, d.pc) = (7, -3, 6) ∧ (d.step 0).running = false ∧
      ({ State.reset with mgmt := { Mgmt.zero with mode := 2, ctl := c } }).stepCtl.mgmt.ctl = c := by decide +kernel

end Sys2Proof.Tests
end
